-- ==== Sys2Proof/Word.lean ====
section
/-! DEFINITION. The word types of the block (00_scope.md R6, R10; 40_primitives.md R90). -/

namespace Sys2Proof

/-- A word: an unsigned 64-bit value, bit 0 the least significant (R10, R90). -/
abbrev Word64 := BitVec 64

/-- A byte of a key, an IV, the keystream or the host's buffer (R99, R100). -/
abbrev Byte := BitVec 8

end Sys2Proof
end

