-- ==== Sys2Proof/Config.lean ====
section
/-! DEFINITION. The configuration: the parameters the spec leaves OPEN (00_scope.md R8, R9; 20_memory.md R60;
60_exceptions.md R232). Every rule holds for every lawful configuration; the machine runs under one
configuration that nothing in Lean can evaluate. -/

namespace Sys2Proof

/-- R110. How one state slot is filled: a key-word index, an IV-word index or none, and a complement flag.
`kw` is the number of key words of the variant. -/
structure Slot (kw : Nat) [NeZero kw] where
  /-- `k`, the key-word index in 0..KW-1. -/
  keyWord : Fin kw
  /-- `v`, an IV-word index in 0..3, or none. -/
  ivWord : Option (Fin 4)
  /-- `c`, the complement flag. -/
  complement : Bool
deriving DecidableEq, Repr, Inhabited

/-- R17. The configuration. The two arithmetic bijections are permutations of the words, so the laws of R95 to
R97 hold of every configuration and nothing more is assumed of it: not linearity, not a fixed point at 0. -/
structure Config where
  /-- FIELD_MUL as a permutation (R95); its inverse permutation is FIELD_MUL_INV (R96). -/
  fieldMul : Equiv.Perm Word64
  /-- TRANSFORM as a permutation (R97). -/
  transform : Equiv.Perm Word64
  /-- SLOTMAP_256 (R111), independent of `slotMap512` (R113). -/
  slotMap256 : Fin 16 → Slot 4
  /-- SLOTMAP_512 (R112), independent of `slotMap256` (R113). -/
  slotMap512 : Fin 16 → Slot 8
deriving Inhabited

/-- The configuration of the block. OPEN in the spec (R8, R9, 93 U1 and U2): no source gives its values, so it has
no body here. -/
opaque Config.active : Config

/-- PORT_BASE, where the port sits in a host's address space. OPEN; no rule reads it (R60, 93 U7). -/
opaque Config.portBase : Nat

/-- PORT_ACCESS_POLICY, which headers the platform lets through to the port. OPEN; no rule reads it (R232, 93 U8).
DESIGN CHOICE: its type. -/
opaque Config.portAccessPolicy : BitVec 5 → Bool

end Sys2Proof
end

