-- ==== Sys2Proof/Syntax.lean ====
section
/-! DEFINITION. What the host can issue (30_encoding.md): the transaction on the port, and one constructor of
`Instr` per row of the opcode table. -/

namespace Sys2Proof

/-- R70, R71. Format HT: what the host puts on the port, a 5-bit header `D IDX` and a 64-bit DATA word.
In a read the host's DATA bits mean nothing: DATA is what the block returns. -/
structure Transaction where
  header : BitVec 5
  data : Word64
deriving DecidableEq, Repr

/-- R70. The two formats: a host transaction, and the command word that a WR CMD carries. -/
inductive Format where
  | ht
  | cmd
deriving DecidableEq, Repr

/-- R75. The complete map of host operations: twelve host transactions, and the five commands a WR CMD can carry. -/
inductive Instr where
  /-- WR KEYi, `1 0iii` (R172). -/
  | wrKey (i : Fin 8) (v : Word64)
  /-- WR IVi, `1 10ii` (R173). -/
  | wrIv (i : Fin 4) (v : Word64)
  /-- WR CMD, `1 1100` (R174): runs the command word `v`. -/
  | wrCmd (v : Word64)
  /-- WR STATUS, `1 1101` (R175): ignored. -/
  | wrStatus (v : Word64)
  /-- WR KSOUT, `1 1110` (R175): ignored. -/
  | wrKsout (v : Word64)
  /-- WR RSV15, `1 1111` (R175): ignored. -/
  | wrRsv15 (v : Word64)
  /-- RD KEYi, `0 0iii` (R176). -/
  | rdKey (i : Fin 8)
  /-- RD IVi, `0 10ii` (R176). -/
  | rdIv (i : Fin 4)
  /-- RD CMD, `0 1100` (R176). -/
  | rdCmd
  /-- RD STATUS, `0 1101` (R177). -/
  | rdStatus
  /-- RD KSOUT, `0 1110` (R178). -/
  | rdKsout
  /-- RD RSV15, `0 1111` (R176). -/
  | rdRsv15
  /-- CMD NOP (R180). -/
  | nop
  /-- CMD SETUP with KLEN and IVLEN in bytes (R181). -/
  | setup (klen ivlen : BitVec 8)
  /-- CMD ZEROIZE (R182). -/
  | zeroize
  /-- CMD CLRERR (R183). -/
  | clrerr
  /-- A reserved command word (R184). -/
  | reserved (w : Word64)
deriving DecidableEq, Repr

/-- The format an instruction is written in (R70, R75). -/
def Instr.format : Instr → Format
  | .wrKey _ _ | .wrIv _ _ | .wrCmd _ | .wrStatus _ | .wrKsout _ | .wrRsv15 _ => .ht
  | .rdKey _ | .rdIv _ | .rdCmd | .rdStatus | .rdKsout | .rdRsv15 => .ht
  | .nop | .setup _ _ | .zeroize | .clrerr | .reserved _ => .cmd

end Sys2Proof
end

