-- ==== Sys2Proof/WellFormed.lean ====
section
/-! DEFINITION. Which terms of `Instr` are instructions. Register numbers are in range by their types, so the
one check is that a `reserved` word really is reserved (30_encoding.md R76). -/

namespace Sys2Proof

/-- R76, the three kinds of reserved command word: an opcode in 0x04..0xFF; RSV nonzero with any opcode; NOP,
ZEROIZE or CLRERR with CMD[23:8] nonzero. -/
def reservedWord (w : Word64) : Bool :=
  decide (4 ≤ (w.extractLsb' 0 8).toNat)
    || (w.extractLsb' 24 40 != 0#40)
    || (((w.extractLsb' 0 8 == 0#8) || (w.extractLsb' 0 8 == 2#8) || (w.extractLsb' 0 8 == 3#8))
        && (w.extractLsb' 8 16 != 0#16))

/-- An instruction is well formed. -/
def Instr.wellFormed : Instr → Bool
  | .reserved w => reservedWord w
  | .wrKey _ _ | .wrIv _ _ | .wrCmd _ | .wrStatus _ | .wrKsout _ | .wrRsv15 _ => true
  | .rdKey _ | .rdIv _ | .rdCmd | .rdStatus | .rdKsout | .rdRsv15 => true
  | .nop | .setup _ _ | .zeroize | .clrerr => true

end Sys2Proof
end

