-- ==== Sys2Proof/Decode.lean ====
section
/-! DEFINITION. The little-endian codec (40_primitives.md R99, R100), the fields of a transaction and of a
command word (30_encoding.md R71 to R74), the decoder (R75, R76; 44_host_commands.md R179) and the encoder. -/

namespace Sys2Proof

/-! ## Little-endian codec -/

/-- R99: byte `j` of a word, zero-extended and moved to its place. -/
def bytePlace (b : Byte) (j : Nat) : Word64 := b.setWidth 64 <<< (8 * j)

/-- R99 word_le: byte 0 becomes bits [7:0] and byte 7 bits [63:56]. The terms of R99's sum share no bit, so the sum
is their OR. -/
def wordLe (b : Vector Byte 8) : Word64 :=
  bytePlace (b.get 0) 0 ||| bytePlace (b.get 1) 1 ||| bytePlace (b.get 2) 2 ||| bytePlace (b.get 3) 3 |||
    bytePlace (b.get 4) 4 ||| bytePlace (b.get 5) 5 ||| bytePlace (b.get 6) 6 ||| bytePlace (b.get 7) 7

/-- R100 bytes_le: byte `k` is `w[8k+7:8k]`. -/
def bytesLe (w : Word64) : Vector Byte 8 :=
  Vector.ofFn fun k : Fin 8 => w.extractLsb' (8 * k.val) 8

/-- Bytes taken eight at a time as little-endian words (20_memory.md R54); a last group of fewer than eight bytes
makes no word. -/
def wordsLe : List Byte → List Word64
  | b0 :: b1 :: b2 :: b3 :: b4 :: b5 :: b6 :: b7 :: rest =>
    wordLe #v[b0, b1, b2, b3, b4, b5, b6, b7] :: wordsLe rest
  | _ => []

/-! ## Fields -/

/-- R71: header[4], 1 for a write. -/
def headerIsWrite (h : BitVec 5) : Bool := h.getLsbD 4

/-- R71: header[3:0], the slot index. -/
def headerIdx (h : BitVec 5) : BitVec 4 := h.extractLsb' 0 4

/-- R74: IDX[2:0], the key word index of slots 0..7. -/
def keyIndex (idx : BitVec 4) : Fin 8 := (idx.extractLsb' 0 3).toFin

/-- R74: IDX[1:0], the IV word index of slots 8..11. -/
def ivIndex (idx : BitVec 4) : Fin 4 := (idx.extractLsb' 0 2).toFin

/-- R71: the header `D IDX`. -/
def mkHeader (write : Bool) (idx : BitVec 4) : BitVec 5 := (if write then 1#1 else 0#1) ++ idx

/-- R72: OPC = CMD[7:0]. -/
def cmdOpc (v : Word64) : BitVec 8 := v.extractLsb' 0 8

/-- R72: KLEN = CMD[15:8]. -/
def cmdKlen (v : Word64) : BitVec 8 := v.extractLsb' 8 8

/-- R72: IVLEN = CMD[23:16]. -/
def cmdIvlen (v : Word64) : BitVec 8 := v.extractLsb' 16 8

/-- R72: RSV = CMD[63:24]. -/
def cmdRsv (v : Word64) : BitVec 40 := v.extractLsb' 24 40

/-- CMD[23:8], which NOP, ZEROIZE and CLRERR want 0 (R179). -/
def cmdLens (v : Word64) : BitVec 16 := v.extractLsb' 8 16

/-- R73: assembling a command word. -/
def mkCmd (opc klen ivlen : BitVec 8) : Word64 :=
  opc.setWidth 64 ||| (klen.setWidth 64 <<< 8) ||| (ivlen.setWidth 64 <<< 16)

/-! ## Decoding -/

/-- R179, R75: a command word, its checks in the order R179 writes them. -/
def decodeCmd (v : Word64) : Instr :=
  if cmdRsv v ≠ 0 then .reserved v
  else if cmdOpc v = 0x00 then (if cmdLens v ≠ 0 then .reserved v else .nop)
  else if cmdOpc v = 0x01 then .setup (cmdKlen v) (cmdIvlen v)
  else if cmdOpc v = 0x02 then (if cmdLens v ≠ 0 then .reserved v else .zeroize)
  else if cmdOpc v = 0x03 then (if cmdLens v ≠ 0 then .reserved v else .clrerr)
  else .reserved v

/-- R75: a write, by its slot (20_memory.md R52). -/
def decodeWrite (idx : BitVec 4) (v : Word64) : Instr :=
  if idx < 8 then .wrKey (keyIndex idx) v
  else if idx < 12 then .wrIv (ivIndex idx) v
  else if idx = 12 then .wrCmd v
  else if idx = 13 then .wrStatus v
  else if idx = 14 then .wrKsout v
  else .wrRsv15 v

/-- R75: a read, by its slot (20_memory.md R52). -/
def decodeRead (idx : BitVec 4) : Instr :=
  if idx < 8 then .rdKey (keyIndex idx)
  else if idx < 12 then .rdIv (ivIndex idx)
  else if idx = 12 then .rdCmd
  else if idx = 13 then .rdStatus
  else if idx = 14 then .rdKsout
  else .rdRsv15

/-- R75: a host transaction. Every one of the 32 headers has a row (R76). -/
def decodeTransaction (t : Transaction) : Instr :=
  if headerIsWrite t.header then decodeWrite (headerIdx t.header) t.data
  else decodeRead (headerIdx t.header)

/-- Why a byte string is no instruction. -/
inductive DecodeError where
  /-- A host transaction is nine bytes in this layout, a command word eight (R70, R78: fixed lengths). -/
  | wrongLength
  /-- The header byte has a bit above the header's five (R71). -/
  | headerTooWide
deriving DecidableEq, Repr

/-- A transaction from its bytes. DESIGN CHOICE (log 6): the header in the low five bits of the first byte, then
DATA in little-endian order. -/
def transactionOfBytes : List Byte → Except DecodeError Transaction
  | [h, b0, b1, b2, b3, b4, b5, b6, b7] =>
    if h.extractLsb' 5 3 ≠ 0 then .error .headerTooWide
    else .ok ⟨h.extractLsb' 0 5, wordLe #v[b0, b1, b2, b3, b4, b5, b6, b7]⟩
  | _ => .error .wrongLength

/-- A command word from its bytes, little-endian. -/
def cmdOfBytes : List Byte → Except DecodeError Word64
  | [b0, b1, b2, b3, b4, b5, b6, b7] => .ok (wordLe #v[b0, b1, b2, b3, b4, b5, b6, b7])
  | _ => .error .wrongLength

/-- The decoder: the instruction a byte string of a format stands for, or why it stands for none. -/
def decode : Format → List Byte → Except DecodeError Instr
  | .ht, bs => (transactionOfBytes bs).map decodeTransaction
  | .cmd, bs => (cmdOfBytes bs).map decodeCmd

/-! ## Encoding -/

/-- R75: the command word of a command; 0 for a host transaction, which has none. -/
def encodeCmd : Instr → Word64
  | .nop => mkCmd 0x00 0 0
  | .setup klen ivlen => mkCmd 0x01 klen ivlen
  | .zeroize => mkCmd 0x02 0 0
  | .clrerr => mkCmd 0x03 0 0
  | .reserved w => w
  | .wrKey _ _ | .wrIv _ _ | .wrCmd _ | .wrStatus _ | .wrKsout _ | .wrRsv15 _ => 0
  | .rdKey _ | .rdIv _ | .rdCmd | .rdStatus | .rdKsout | .rdRsv15 => 0

/-- R75: the transaction that issues an instruction. A command is issued by the WR CMD that carries its word
(R15, R174); a read carries DATA 0. -/
def encodeTransaction : Instr → Transaction
  | .wrKey i v => ⟨mkHeader true (0#1 ++ BitVec.ofFin (w := 3) i), v⟩
  | .wrIv i v => ⟨mkHeader true (0b10#2 ++ BitVec.ofFin (w := 2) i), v⟩
  | .wrCmd v => ⟨mkHeader true 12, v⟩
  | .wrStatus v => ⟨mkHeader true 13, v⟩
  | .wrKsout v => ⟨mkHeader true 14, v⟩
  | .wrRsv15 v => ⟨mkHeader true 15, v⟩
  | .rdKey i => ⟨mkHeader false (0#1 ++ BitVec.ofFin (w := 3) i), 0⟩
  | .rdIv i => ⟨mkHeader false (0b10#2 ++ BitVec.ofFin (w := 2) i), 0⟩
  | .rdCmd => ⟨mkHeader false 12, 0⟩
  | .rdStatus => ⟨mkHeader false 13, 0⟩
  | .rdKsout => ⟨mkHeader false 14, 0⟩
  | .rdRsv15 => ⟨mkHeader false 15, 0⟩
  | .nop => ⟨mkHeader true 12, encodeCmd .nop⟩
  | .setup klen ivlen => ⟨mkHeader true 12, encodeCmd (.setup klen ivlen)⟩
  | .zeroize => ⟨mkHeader true 12, encodeCmd .zeroize⟩
  | .clrerr => ⟨mkHeader true 12, encodeCmd .clrerr⟩
  | .reserved w => ⟨mkHeader true 12, w⟩

/-- A transaction as bytes, the layout `transactionOfBytes` reads. -/
def bytesOfTransaction (t : Transaction) : List Byte :=
  t.header.setWidth 8 :: (bytesLe t.data).toList

/-- The encoder: an instruction's bytes in its own format. -/
def encode (i : Instr) : List Byte :=
  match i.format with
  | .ht => bytesOfTransaction (encodeTransaction i)
  | .cmd => (bytesLe (encodeCmd i)).toList

/-! ## The opcode table's words -/

/-- The format of a table row whose words have `nbits` bits: the CMD rows have 64, the HT rows the header's byte
(DATA above it, DESIGN CHOICE, log 6). -/
def tableFormat (nbits : Nat) : Format := if nbits = 64 then .cmd else .ht

/-- The bytes of a table word: least significant first, eight for a command word, nine for a transaction. -/
def tableBytes (nbits w : Nat) : List Byte :=
  match tableFormat nbits with
  | .cmd => (bytesLe (BitVec.ofNat 64 w)).toList
  | .ht => BitVec.ofNat 8 w :: (bytesLe (BitVec.ofNat 64 (w / 256))).toList

/-- The transaction that carries a table word to the port: itself, or the WR CMD that holds the command word. -/
def tableTransaction (nbits w : Nat) : Except DecodeError Transaction :=
  match tableFormat nbits with
  | .cmd => (cmdOfBytes (tableBytes nbits w)).map fun v => ⟨mkHeader true 12, v⟩
  | .ht => transactionOfBytes (tableBytes nbits w)

/-- The instruction the decoder reads from a word of the opcode table, or none where it rejects it. -/
def decodeTableWord (nbits w : Nat) : Option Instr :=
  (decode (tableFormat nbits) (tableBytes nbits w)).toOption

end Sys2Proof
end

