-- ==== Sys2Proof/Machine/State.lean ====
section
/-! DEFINITION. The state of the two agents (92_eei_decisions.md D1): the block's registers (10_state.md) and the
host that issues transactions to it (20_memory.md R51, R62; 45_stream_driver.md R200). Plain data throughout. -/

namespace Sys2Proof.Machine

/-- R3, R27. The variant; STATUS.VARIANT is 0 for 256 and 1 for 512. -/
inductive Variant where
  | v256
  | v512
deriving DecidableEq, Repr

/-- R221. The error kinds. `unsupportedPlatform` is reserved and never raised (R223). -/
inductive ErrorKind where
  | invalidLength
  | unsupportedPlatform
  | notReady
  | illegalCommand
deriving DecidableEq, Repr

/-- R17, R20 to R23. The contents of the cipher instance (the DOC's CipherInstance). -/
structure CipherInstance where
  /-- `S[0..15]`, the state array (R20). -/
  S : Vector Word64 16
  /-- `R[0]`, the first word of the delay register (R21). -/
  R0 : Word64
  /-- `R[1]`, the second word of the delay register (R21). -/
  R1 : Word64
  /-- `G[0..15]`, the keystream buffer (R22). -/
  G : Vector Word64 16
  /-- `cur`, the cursor, 0..16 (R23); 16 never between transactions. -/
  cur : Fin 17
deriving DecidableEq, Repr

/-- R200 to R206. The stream driver's own actions. Each one that needs the block becomes port transactions. -/
inductive DriverOp where
  /-- R204, R205: build an instance from key bytes and IV bytes. -/
  | construct (key iv : List Byte)
  /-- R204 steps 3 and 4, R252 step 4: check the STATUS value just read; `expected` is the variant that the lengths
  of the SETUP select, none where they make it fail. -/
  | confirm (expected : Option Variant)
  /-- R201: APPLY_KEYSTREAM(buf, len). -/
  | apply (buf len : Nat)
  /-- R161: put the word just returned into bytes 8j..8j+7 of the tail buffer. -/
  | takeWord (j : Fin 16)
  /-- R201: the block is fetched; tp becomes 0. -/
  | rewind
  /-- R206: end the instance's use. -/
  | dispose
deriving DecidableEq, Repr

/-- What the host's program is made of (R30, R51; R250; R200). -/
inductive HostEvent where
  /-- One transaction on the port. -/
  | transaction (t : Transaction)
  /-- The platform asserts reset. -/
  | reset
  /-- The stream driver acts. -/
  | driver (op : DriverOp)
deriving DecidableEq, Repr

/-- What the driver reports of its last construction, unless a SETUP has succeeded since (R204, R205; log 15). -/
inductive DriverReport where
  /-- No construction of the driver's own has been confirmed or has failed since the last successful SETUP. -/
  | idle
  /-- READY = 1, the expected VARIANT and ERR = 0 were read. -/
  | constructed
  /-- A length the port cannot express: InvalidLength, no SETUP issued (R205). -/
  | invalidLength
  /-- The STATUS value read did not confirm the construction. -/
  | notConfirmed (status : Word64)
deriving DecidableEq, Repr

/-- The host's data buffer (R14, R201): bytes by address, addresses strictly rising, no entry equal to what an
unlisted address reads as. -/
abbrev Memory := List Host.Cell

/-- R259: which staging registers the host has written since they were last cleared. The block does not track
this, so it is the host's record. -/
structure Staged where
  /-- Which of `KEY[0..7]`. -/
  key : Vector Bool 8
  /-- Which of `IV[0..3]`. -/
  iv : Vector Bool 4
deriving DecidableEq, Repr

/-- Nothing written. -/
def Staged.empty : Staged := ⟨Vector.replicate 8 false, Vector.replicate 4 false⟩

/-- The host agent. -/
structure HostAgent where
  /-- The events still to come, in issue order (R30, R62). -/
  program : List HostEvent
  /-- The DATA values reads have returned, latest first (R71). The model's own record. -/
  returned : List Word64
  /-- `TB[0..127]`, the driver's tail buffer (R200). -/
  tb : Vector Byte 128
  /-- `tp`, the tail position, 0..128; 128 means the tail is empty (R200). -/
  tp : Fin 129
  /-- The host's data buffer (R14). -/
  mem : Memory
  /-- The driver's report (R204, R205). The model's own record. -/
  report : DriverReport
  /-- What the host has staged since the last clearing (R259). The model's own record. -/
  staged : Staged
  /-- Whether a SETUP issued too early is a host fault (R259; 93 U9) or only has the block's effect (R258). The
  model's own (log 24). -/
  strict : Bool
deriving DecidableEq, Repr

/-- The state of the machine. -/
structure State where
  /-- S, R, G and cur. -/
  inst : CipherInstance
  /-- `KEY[0..7]`, the key staging registers (R24). -/
  key : Vector Word64 8
  /-- `IV[0..3]`, the IV staging registers (R25). -/
  iv : Vector Word64 4
  /-- STATUS.READY (R26). -/
  ready : Bool
  /-- STATUS.VARIANT (R27). -/
  variant : Variant
  /-- STATUS.ERR (R28). -/
  err : BitVec 8
  /-- The host agent. -/
  host : HostAgent
deriving DecidableEq, Repr

/-- Why the machine stops with a fault. The block itself never does (R220): none is raised in a state that a run from
reset leads to, but for the host fault of a host that is held to R259. -/
inductive Fault where
  /-- Raised by RD KSOUT when READY = 1 and cur = 16 between transactions, where R23 says cur is in 0..15 and the
  spec gives no word. Safe: no run from reset gets there (log 5). -/
  | cursorSpent
  /-- Raised by the driver actions `takeWord` and `confirm` when no read has returned a word. Safe: the driver's
  own expansions always read first (log 18). -/
  | hostNoReturnedWord
  /-- R259, 93 U9. Raised by step when a host that is held to the discipline (`strict`) issues a SETUP with valid
  lengths before it has written all KW + 4 words. Safe: the block would run on with zeros (R258), which is what step
  does for every other host (log 24). -/
  | setupBeforeStaged
deriving DecidableEq, Repr

/-- Why the machine refuses an instruction. -/
inductive Refusal where
  /-- An instruction with no meaning yet, by mnemonic, raised by exec. Safe. No arm answers it in this model. -/
  | notModelled (mnemonic : String)
deriving DecidableEq, Repr

/-- R36: S, R, G and cur after reset. -/
def CipherInstance.zero : CipherInstance :=
  { S := Vector.replicate 16 0, R0 := 0, R1 := 0, G := Vector.replicate 16 0, cur := 0 }

/-- The host before its program is given: nothing issued, returned or staged, the tail empty (R200).
DESIGN CHOICE: the bytes of TB and of the data buffer (log 12, log 13), and a host not held to R259 (log 24). -/
def HostAgent.initial : HostAgent :=
  { program := [], returned := [], tb := Vector.replicate 128 0, tp := 128, mem := [], report := .idle
    staged := .empty, strict := false }

/-- R36, R250. The machine right after reset: every register of the block is 0. -/
def State.reset : State :=
  { inst := .zero
    key := Vector.replicate 8 0
    iv := Vector.replicate 4 0
    ready := false
    variant := .v256
    err := 0
    host := .initial }

end Sys2Proof.Machine
end

