-- ==== Sys2Proof/Machine/Ops.lean ====
section
/-! DEFINITION. The named operations over registers and memory, and the two shared operations on errors: raising
one (60_exceptions.md R226), the block's whole "exception entry", and clearing it (44_host_commands.md R183). -/

namespace Sys2Proof.Machine

/-! ## Word arithmetic -/

/-- R91 add64: wrapping addition, the carry discarded. -/
def add64 (a b : Word64) : Word64 := a + b

/-! ## Register arrays -/

/-- Read register `i` of an array of `k` words. -/
def rget {k : Nat} (v : Vector Word64 k) (i : Fin k) : Word64 := v.get i

/-- Write register `i` of an array of `k` words. -/
def rset {k : Nat} (v : Vector Word64 k) (i : Fin k) (x : Word64) : Vector Word64 k := v.set i.val x i.isLt

/-- `S[n]` (R13). -/
def CipherInstance.lane (x : CipherInstance) (n : Fin 16) : Word64 := rget x.S n

/-- `S[n] <- v` (R13). -/
def CipherInstance.setLane (x : CipherInstance) (n : Fin 16) (v : Word64) : CipherInstance :=
  { x with S := rset x.S n v }

/-- `G[n]` (R13). -/
def CipherInstance.gamma (x : CipherInstance) (n : Fin 16) : Word64 := rget x.G n

/-- `G[n] <- v` (R13). -/
def CipherInstance.setGamma (x : CipherInstance) (n : Fin 16) (v : Word64) : CipherInstance :=
  { x with G := rset x.G n v }

/-- `R[0] <- a; R[1] <- b`. -/
def CipherInstance.setR (x : CipherInstance) (a b : Word64) : CipherInstance := { x with R0 := a, R1 := b }

/-- `cur <- c`. -/
def CipherInstance.setCur (x : CipherInstance) (c : Fin 17) : CipherInstance := { x with cur := c }

/-- `KEY[i] <- v` (R172). -/
def State.setKey (s : State) (i : Fin 8) (v : Word64) : State := { s with key := rset s.key i v }

/-- `IV[i] <- v` (R173). -/
def State.setIv (s : State) (i : Fin 4) (v : Word64) : State := { s with iv := rset s.iv i v }

/-- `KEY[0..7] <- 0; IV[0..3] <- 0` (R24, R25). -/
def State.clearStaging (s : State) : State :=
  { s with key := Vector.replicate 8 0, iv := Vector.replicate 4 0 }

/-- Replace S, R, G and cur. -/
def State.setInst (s : State) (x : CipherInstance) : State := { s with inst := x }

/-- Write STATUS.READY and STATUS.VARIANT. -/
def State.setReady (s : State) (r : Bool) (v : Variant) : State := { s with ready := r, variant := v }

/-! ## Errors -/

/-- R221: the code of an error. -/
def ErrorKind.code : ErrorKind → BitVec 8
  | .invalidLength => 0x01
  | .unsupportedPlatform => 0x02
  | .notReady => 0x03
  | .illegalCommand => 0x04

/-- R226 `raise e`: the first error since the last CLRERR or reset is kept. There is no saved pc, no vector and no
mode to change (R228). -/
def State.raise (s : State) (e : ErrorKind) : State :=
  if s.err = 0 then { s with err := e.code } else s

/-- R183: STATUS.ERR <- 0. -/
def State.clearErr (s : State) : State := { s with err := 0 }

/-! ## The host's side of the port -/

/-- A read completes: the block returns `v` in DATA (R71). -/
def State.returns (s : State) (v : Word64) : State :=
  { s with host := { s.host with returned := v :: s.host.returned } }

/-- Replace the events still to come. -/
def State.setProgram (s : State) (p : List HostEvent) : State :=
  { s with host := { s.host with program := p } }

/-- Put events before the ones still to come. -/
def State.issueFirst (s : State) (es : List HostEvent) : State := s.setProgram (es ++ s.host.program)

/-- Write TB. -/
def State.setTb (s : State) (tb : Vector Byte 128) : State := { s with host := { s.host with tb := tb } }

/-- Write tp. -/
def State.setTp (s : State) (tp : Fin 129) : State := { s with host := { s.host with tp := tp } }

/-- Write the host's data buffer. -/
def State.setMem (s : State) (m : Memory) : State := { s with host := { s.host with mem := m } }

/-- Write the driver's report. -/
def State.setReport (s : State) (r : DriverReport) : State := { s with host := { s.host with report := r } }

/-- Write the host's record of what it has staged. -/
def State.setStaged (s : State) (g : Staged) : State := { s with host := { s.host with staged := g } }

/-- R250: reset puts every register of the block at its reset value (R36). The host keeps what is its own, but its
record of what it has staged says that nothing is (log 8). -/
def State.resetBlock (s : State) : State := { State.reset with host := { s.host with staged := .empty } }

/-! ## The host's data buffer -/

/-- What an address that is not listed reads as. DESIGN CHOICE (log 13). -/
def Memory.unlisted : Byte := 0x00

/-- R14 MemRead of one byte. -/
def Memory.readByte : Memory → Nat → Byte
  | [], _ => Memory.unlisted
  | (a, b) :: m, x => if x = a then b else Memory.readByte m x

/-- Put a cell in front, unless it holds what an unlisted address reads as. -/
def Memory.putCell (a : Nat) (b : Byte) (m : Memory) : Memory :=
  if b = Memory.unlisted then m else (a, b) :: m

/-- R14 MemWrite of one byte, keeping the canonical form. -/
def Memory.writeByte : Memory → Nat → Byte → Memory
  | [], x, b => Memory.putCell x b []
  | (a, c) :: m, x, b =>
    if x < a then Memory.putCell x b ((a, c) :: m)
    else if x = a then Memory.putCell x b m
    else (a, c) :: Memory.writeByte m x b

/-- The canonical form: addresses strictly rising, no entry equal to what an unlisted address reads as. -/
def Memory.wf : Memory → Bool
  | [] => true
  | (a, b) :: m => decide (b ≠ Memory.unlisted) && m.all (fun c => decide (a < c.1)) && Memory.wf m

end Sys2Proof.Machine
end

