-- ==== Sys2Proof/Machine/Operands.lean ====
section
/-! DEFINITION. What the operands of the commands and of the lane updates mean: lengths to a variant
(41_setup.md R120, R121), staging registers to key words (R114), lane numbers to neighbours (40_primitives.md R94). -/

namespace Sys2Proof.Machine

/-- R120, R121: the variant that KLEN and IVLEN select, or none when a length is invalid. -/
def variantOfLengths (klen ivlen : BitVec 8) : Option Variant :=
  if ivlen ≠ 32 then none
  else if klen = 32 then some .v256
  else if klen = 64 then some .v512
  else none

/-- R114: the key words of variant 256 are KEY[0..3]; KEY[4..7] are not read (R115). -/
def keyWords256 (key : Vector Word64 8) : Vector Word64 4 :=
  #v[rget key 0, rget key 1, rget key 2, rget key 3]

/-- R114: the key words of variant 512 are KEY[0..7]. -/
def keyWords512 (key : Vector Word64 8) : Vector Word64 8 := key

/-- R12, R94: lane `(n + k) % 16`. -/
def laneAt (n : Fin 16) (k : Nat) : Fin 16 := ⟨(n.val + k) % 16, Nat.mod_lt _ (by decide)⟩

/-- R139: the lanes in the order a pass runs them. Irreducible, so that no proof unrolls a pass by accident; the law
`laneOrder_eq` gives its value. -/
@[irreducible] def laneOrder : List (Fin 16) := List.finRange 16

end Sys2Proof.Machine
end

