-- ==== Sys2Proof/Machine/Flags.lean ====
section
/-! DEFINITION. The status register (10_state.md R26 to R29). The block has no arithmetic flags (R35): READY,
VARIANT and ERR are all the status bits there are. -/

namespace Sys2Proof.Machine

/-- R27: STATUS.VARIANT as a bit. -/
def Variant.bit : Variant → BitVec 1
  | .v256 => 0
  | .v512 => 1

/-- STATUS.READY as a bit (R26). -/
def readyBit (r : Bool) : BitVec 1 := if r then 1 else 0

/-- R177: zext_64(READY) | (zext_64(VARIANT) << 1) | (zext_64(ERR) << 8). The other bits read 0 (R29). -/
def statusOf (ready : Bool) (variant : Variant) (err : BitVec 8) : Word64 :=
  (readyBit ready).setWidth 64 ||| (variant.bit.setWidth 64 <<< 1) ||| (err.setWidth 64 <<< 8)

/-- R29: the STATUS register. -/
def State.status (s : State) : Word64 := statusOf s.ready s.variant s.err

/-- R29: READY in a STATUS value, bit 0. -/
def statusReady (v : Word64) : Bool := v.getLsbD 0

/-- R29: VARIANT in a STATUS value, bit 1. -/
def statusVariant (v : Word64) : BitVec 1 := v.extractLsb' 1 1

/-- R29: ERR in a STATUS value, bits [15:8]. -/
def statusErr (v : Word64) : BitVec 8 := v.extractLsb' 8 8

end Sys2Proof.Machine
end

