-- ==== Sys2Proof/Machine/FieldUnit.lean ====
section
/-! DEFINITION. The finite-field unit: FIELD_MUL, FIELD_MUL_INV and TRANSFORM of a configuration
(40_primitives.md R95 to R98). -/

namespace Sys2Proof.Machine

/-- R95 `A(x)`. -/
def fieldMul (c : Config) (x : Word64) : Word64 := c.fieldMul x

/-- R96 `Ainv(x)`. -/
def fieldMulInv (c : Config) (x : Word64) : Word64 := c.fieldMul.symm x

/-- R97 `T(x)`. -/
def transform (c : Config) (x : Word64) : Word64 := c.transform x

end Sys2Proof.Machine
end

