-- ==== Sys2Proof/Machine/Mixing.lean ====
section
/-! DEFINITION. The state mixing engine (42_mixing.md). The passes are folds over the lanes, so every lane update
reads what the one before it left (R131, R139). -/

namespace Sys2Proof.Machine

/-- `S[(n+k)%16]` (R94). -/
def CipherInstance.laneOff (x : CipherInstance) (n : Fin 16) (k : Nat) : Word64 := x.lane (laneAt n k)

/-- The three terms both lane kinds put into S[n]: A(S[n]) ^ S[(n+13)%16] ^ Ainv(S[(n+11)%16]) (R130, R135). -/
def laneTerms (c : Config) (n : Fin 16) (x : CipherInstance) : Word64 :=
  fieldMul c (x.lane n) ^^^ x.laneOff n 13 ^^^ fieldMulInv c (x.laneOff n 11)

/-- R132 register aging: (R[0], R[1]) becomes (add64(R[1], S[(n+13)%16]), T(R[0])), both from the old values. -/
def ageR (c : Config) (n : Fin 16) (x : CipherInstance) : CipherInstance :=
  x.setR (add64 x.R1 (x.laneOff n 13)) (transform c x.R0)

/-- R130 INIT_LANE(n). -/
def initLane (c : Config) (n : Fin 16) (x : CipherInstance) : CipherInstance :=
  ageR c n (x.setLane n (laneTerms c n x ^^^ add64 x.R0 (x.laneOff n 15) ^^^ x.R1))

/-- R135, R136: the output word of a generation lane, from the state after S[n] and R are updated. -/
def outputWord (n : Fin 16) (y : CipherInstance) : Word64 :=
  add64 y.R0 (y.lane n) ^^^ y.R1 ^^^ y.laneOff n 1

/-- R135, the state part of GEN_LANE(n): no R term enters S[n]. -/
def genLaneState (c : Config) (n : Fin 16) (x : CipherInstance) : CipherInstance :=
  ageR c n (x.setLane n (laneTerms c n x))

/-- R135 GEN_LANE(n). -/
def genLane (c : Config) (n : Fin 16) (x : CipherInstance) : CipherInstance :=
  let y := genLaneState c n x
  y.setGamma n (outputWord n y)

/-- R133 INIT_PASS. -/
def initPass (c : Config) (x : CipherInstance) : CipherInstance :=
  laneOrder.foldl (fun y n => initLane c n y) x

/-- R137 GEN_PASS: sixteen generation lanes, then cur <- 0. -/
def genPass (c : Config) (x : CipherInstance) : CipherInstance :=
  (laneOrder.foldl (fun y n => genLane c n y) x).setCur 0

end Sys2Proof.Machine
end

