-- ==== Sys2Proof/Machine/Setup.lean ====
section
/-! DEFINITION. Key/IV setup and construction (41_setup.md). -/

namespace Sys2Proof.Machine

/-- R110 slotval: the key word, XORed with the IV word if the slot has one, complemented if its flag is set. -/
def slotVal {kw : Nat} [NeZero kw] (K : Vector Word64 kw) (iv : Vector Word64 4) (sl : Slot kw) : Word64 :=
  let x := rget K sl.keyWord ^^^ (match sl.ivWord with
    | none => 0
    | some v => rget iv v)
  if sl.complement then ~~~x else x

/-- R117: the sixteen words that LOAD puts into S. -/
def loadWords (c : Config) (v : Variant) (key : Vector Word64 8) (iv : Vector Word64 4) : Vector Word64 16 :=
  match v with
  | .v256 => Vector.ofFn fun i => slotVal (keyWords256 key) iv (c.slotMap256 i)
  | .v512 => Vector.ofFn fun i => slotVal (keyWords512 key) iv (c.slotMap512 i)

/-- R117 LOAD(variant): S from the key and IV words, R zeroed. -/
def load (c : Config) (v : Variant) (key : Vector Word64 8) (iv : Vector Word64 4) (x : CipherInstance) :
    CipherInstance :=
  { x with S := loadWords c v key iv, R0 := 0, R1 := 0 }

/-- R119 CONSTRUCT(variant): LOAD, two initialization passes, one generation pass, cur <- 0. -/
def construct (c : Config) (v : Variant) (key : Vector Word64 8) (iv : Vector Word64 4) (x : CipherInstance) :
    CipherInstance :=
  (genPass c (initPass c (initPass c (load c v key iv x)))).setCur 0

end Sys2Proof.Machine
end

