-- ==== Sys2Proof/Machine/Keystream.lean ====
section
/-! DEFINITION. The keystream buffer, its cursor and the serializer (43_keystream.md). -/

namespace Sys2Proof.Machine

/-- R150, R151, the part of NEXT_WORD that needs an instance: the word at the cursor, then the cursor's advance,
then the refill in the same transaction when the cursor reaches 16. None where cur is 16 already, which R23 says
never happens between transactions. -/
def takeWord (c : Config) (x : CipherInstance) : Option (Word64 × CipherInstance) :=
  if h : x.cur.val < 16 then
    let w := x.gamma ⟨x.cur.val, h⟩
    let y := x.setCur ⟨x.cur.val + 1, by omega⟩
    some (w, if y.cur = 16 then genPass c y else y)
  else none

/-- R150 NEXT_WORD under a configuration. With no instance it raises NotReady and returns 0 (R224). -/
def nextWord (c : Config) (s : State) : Host.Outcome State Fault Refusal :=
  if s.ready then
    match takeWord c s.inst with
    | none => .fault .cursorSpent
    | some (w, y) => .next ((s.setInst y).returns w)
  else .next ((s.raise .notReady).returns 0)

/-- R160 SERIALIZE: the eight keystream bytes of a keystream word. -/
def serialize (w : Word64) : Vector Byte 8 := bytesLe w

end Sys2Proof.Machine
end

