-- ==== Sys2Proof/Machine/Port.lean ====
section
/-! DEFINITION. Fetching the next event of the host's program (10_state.md R30; 20_memory.md R62). -/

namespace Sys2Proof.Machine

/-- The next event, in issue order, and the state once it is taken from the program; none when the host issues
no further transaction (R263). -/
def State.fetch (s : State) : Option (HostEvent × State) :=
  match s.host.program with
  | [] => none
  | e :: rest => some (e, s.setProgram rest)

/-- The block with no transaction on its port: it keeps its state (R237, R263). -/
def stepIdle (s : State) : Host.Outcome State Fault Refusal := .next s

/-- R250, R251: reset, between transactions. -/
def stepReset (s : State) : Host.Outcome State Fault Refusal := .next s.resetBlock

end Sys2Proof.Machine
end

