-- ==== Sys2Proof/Machine/Driver.lean ====
section
/-! DEFINITION. The host's stream driver (45_stream_driver.md). It reaches the block only through transactions it
puts on the port: an action that needs the block puts them before the rest of its program (log 11). -/

namespace Sys2Proof.Machine

/-! ## NEXT_BLOCK -/

/-- A transaction that issues an instruction, as an event. -/
def issue (i : Instr) : HostEvent := .transaction (encodeTransaction i)

/-- R161 NEXT_BLOCK into TB: sixteen RD KSOUT, each word's bytes put into the buffer as it is returned. -/
def nextBlockEvents : List HostEvent :=
  laneOrder.flatMap fun j => [issue .rdKsout, .driver (.takeWord j)]

/-- R161: out[8j .. 8j+7] <- bytes_le(w). -/
def putWord (tb : Vector Byte 128) (j : Fin 16) (w : Word64) : Vector Byte 128 :=
  Vector.ofFn fun i =>
    if i.val / 8 = j.val then (serialize w).get ⟨i.val % 8, Nat.mod_lt _ (by decide)⟩ else tb.get i

/-- R161: the word just returned goes into the tail buffer. -/
def driverTakeWord (j : Fin 16) (s : State) : Host.Outcome State Fault Refusal :=
  match s.host.returned with
  | [] => .fault .hostNoReturnedWord
  | w :: _ => .next (s.setTb (putWord s.host.tb j w))

/-- R201: tp <- 0, the block being fetched. -/
def driverRewind (s : State) : Host.Outcome State Fault Refusal := .next (s.setTp 0)

/-! ## APPLY_KEYSTREAM -/

/-- R201, the body of the loop once the tail holds a byte: b <- MemRead; MemWrite b ^ TB[tp]; tp <- tp + 1. -/
def xorByte (buf : Nat) (tp : Fin 128) (s : State) : State :=
  (s.setMem (s.host.mem.writeByte buf (s.host.mem.readByte buf ^^^ s.host.tb.get tp))).setTp tp.succ

/-- R201 APPLY_KEYSTREAM(buf, len), one byte a step. A block is fetched only when a byte needs it. -/
def applyBytes (buf len : Nat) (s : State) : Host.Outcome State Fault Refusal :=
  match len with
  | 0 => .next s
  | n + 1 =>
    if h : s.host.tp.val < 128 then
      .next ((xorByte buf ⟨s.host.tp.val, h⟩ s).issueFirst [.driver (.apply (buf + 1) n)])
    else
      .next (s.issueFirst (nextBlockEvents ++ [.driver .rewind, .driver (.apply buf (n + 1))]))

/-- R204 step 3: whether the driver may consume keystream. DESIGN CHOICE (log 15): it may not after a construction that
failed, until a later SETUP succeeds, whoever issues it. Before any construction of its own it may, and the KSOUT reads
raise NotReady (R201). -/
def DriverReport.mayConsume : DriverReport → Bool
  | .idle | .constructed => true
  | .invalidLength | .notConfirmed _ => false

/-- R201, R204: APPLY_KEYSTREAM of a driver that may consume keystream; any other consumes none and changes no byte. -/
def driverApply (buf len : Nat) (s : State) : Host.Outcome State Fault Refusal :=
  if s.host.report.mayConsume then applyBytes buf len s else .next s

/-! ## Construction and disposal -/

/-- R206: overwrite TB and write CMD ZEROIZE. -/
def driverDispose (s : State) : Host.Outcome State Fault Refusal :=
  .next ((s.setTb (Vector.replicate 128 0)).issueFirst [issue .zeroize])

/-- R206, "on every exit path including early errors": a construction that fails is reported and ends in the same
disposal. -/
def driverFail (r : DriverReport) (s : State) : Host.Outcome State Fault Refusal := driverDispose (s.setReport r)

/-- R204 step 1: the key words to KEY0, KEY1, ... -/
def keyWrites (key : List Byte) : List HostEvent :=
  ((wordsLe key).zip (List.finRange 8)).map fun p => issue (.wrKey p.2 p.1)

/-- R204 step 1: the IV words to IV0, IV1, ... -/
def ivWrites (iv : List Byte) : List HostEvent :=
  ((wordsLe iv).zip (List.finRange 4)).map fun p => issue (.wrIv p.2 p.1)

/-- R204: the words, then SETUP with the true lengths, then STATUS, then the check. -/
def constructEvents (key iv : List Byte) : List HostEvent :=
  keyWrites key ++ ivWrites iv ++
    [issue (.setup (BitVec.ofNat 8 key.length) (BitVec.ofNat 8 iv.length)), issue .rdStatus,
      .driver (.confirm (variantOfLengths (BitVec.ofNat 8 key.length) (BitVec.ofNat 8 iv.length)))]

/-- R204, R205: a length the port cannot express is reported as InvalidLength and no SETUP is issued. -/
def driverConstruct (key iv : List Byte) (s : State) : Host.Outcome State Fault Refusal :=
  if 255 < key.length ∨ 255 < iv.length then driverFail .invalidLength s
  else .next (s.issueFirst (constructEvents key iv))

/-- R204 step 3, R252 step 4: READY = 1, VARIANT the expected one and ERR = 0. -/
def statusConfirms (expected : Option Variant) (v : Word64) : Bool :=
  match expected with
  | none => false
  | some x => statusReady v && decide (statusVariant v = x.bit) && decide (statusErr v = 0)

/-- R204 steps 3 and 4: the STATUS value just read confirms the construction, and the tail is empty (R200), or the
construction has failed. -/
def driverConfirm (expected : Option Variant) (s : State) : Host.Outcome State Fault Refusal :=
  match s.host.returned with
  | [] => .fault .hostNoReturnedWord
  | v :: _ =>
    if statusConfirms expected v then .next ((s.setTp 128).setReport .constructed)
    else driverFail (.notConfirmed v) s

/-- One action of the driver. -/
def driverStep (op : DriverOp) (s : State) : Host.Outcome State Fault Refusal :=
  match op with
  | .construct key iv => driverConstruct key iv s
  | .confirm expected => driverConfirm expected s
  | .apply buf len => driverApply buf len s
  | .takeWord j => driverTakeWord j s
  | .rewind => driverRewind s
  | .dispose => driverDispose s

end Sys2Proof.Machine
end

