-- ==== Sys2Proof/Machine/HostReads.lean ====
section
/-! DEFINITION. The read transactions (44_host_commands.md R176 to R178). -/

namespace Sys2Proof.Machine

/-- R176 RD KEYi: returns 0; a staged key is never readable. -/
def execRdKey (_i : Fin 8) (s : State) : Host.Outcome State Fault Refusal := .next (s.returns 0)

/-- R176 RD IVi: returns 0. -/
def execRdIv (_i : Fin 4) (s : State) : Host.Outcome State Fault Refusal := .next (s.returns 0)

/-- R176 RD CMD: returns 0. -/
def execRdCmd (s : State) : Host.Outcome State Fault Refusal := .next (s.returns 0)

/-- R177 RD STATUS: returns the status register and clears nothing. -/
def execRdStatus (s : State) : Host.Outcome State Fault Refusal := .next (s.returns s.status)

/-- R178 RD KSOUT: NEXT_WORD. -/
def execRdKsout (s : State) : Host.Outcome State Fault Refusal := nextWord Config.active s

/-- R176 RD RSV15: returns 0. -/
def execRdRsv15 (s : State) : Host.Outcome State Fault Refusal := .next (s.returns 0)

end Sys2Proof.Machine
end

