-- ==== Sys2Proof/Machine/Commands.lean ====
section
/-! DEFINITION. The commands a WR CMD carries (44_host_commands.md R179 to R184). -/

namespace Sys2Proof.Machine

/-- R180 CMD NOP: no effect; ERR is not cleared. -/
def execNop (s : State) : Host.Outcome State Fault Refusal := .next s

/-- R181 CMD SETUP under a configuration. Invalid lengths: InvalidLength, and only the staging registers are
cleared (R122, R222). Valid lengths: CONSTRUCT, then READY, VARIANT and the staging registers. -/
def setupUnder (c : Config) (klen ivlen : BitVec 8) (s : State) : State :=
  match variantOfLengths klen ivlen with
  | none => (s.raise .invalidLength).clearStaging
  | some v => ((s.setInst (construct c v s.key s.iv s.inst)).setReady true v).clearStaging

/-- R181 CMD SETUP. -/
def execSetup (klen ivlen : BitVec 8) (s : State) : Host.Outcome State Fault Refusal :=
  .next (setupUnder Config.active klen ivlen s)

/-- R182 CMD ZEROIZE: instance and staging to 0, READY and VARIANT to 0, ERR unchanged. -/
def execZeroize (s : State) : Host.Outcome State Fault Refusal :=
  .next (((s.setInst .zero).setReady false .v256).clearStaging)

/-- R183 CMD CLRERR: STATUS.ERR <- 0. -/
def execClrerr (s : State) : Host.Outcome State Fault Refusal := .next s.clearErr

/-- R184 a reserved command word: IllegalCommand and no other effect (R225). -/
def execReserved (_w : Word64) (s : State) : Host.Outcome State Fault Refusal := .next (s.raise .illegalCommand)

/-- R179 EXECUTE_CMD(v): the checks in the order written, the first that fails wins (R227). -/
def executeCmd (v : Word64) (s : State) : Host.Outcome State Fault Refusal :=
  if cmdRsv v ≠ 0 then execReserved v s
  else if cmdOpc v = 0x00 then (if cmdLens v ≠ 0 then execReserved v s else execNop s)
  else if cmdOpc v = 0x01 then execSetup (cmdKlen v) (cmdIvlen v) s
  else if cmdOpc v = 0x02 then (if cmdLens v ≠ 0 then execReserved v s else execZeroize s)
  else if cmdOpc v = 0x03 then (if cmdLens v ≠ 0 then execReserved v s else execClrerr s)
  else execReserved v s

end Sys2Proof.Machine
end

