-- ==== Sys2Proof/Machine/HostWrites.lean ====
section
/-! DEFINITION. The write transactions (44_host_commands.md R172 to R175). -/

namespace Sys2Proof.Machine

/-- R172 WR KEYi: KEY[i] <- v. -/
def execWrKey (i : Fin 8) (v : Word64) (s : State) : Host.Outcome State Fault Refusal := .next (s.setKey i v)

/-- R173 WR IVi: IV[i] <- v. -/
def execWrIv (i : Fin 4) (v : Word64) (s : State) : Host.Outcome State Fault Refusal := .next (s.setIv i v)

/-- R174 WR CMD: EXECUTE_CMD(v). -/
def execWrCmd (v : Word64) (s : State) : Host.Outcome State Fault Refusal := executeCmd v s

/-- R175 WR STATUS: ignored, no error. -/
def execWrStatus (_v : Word64) (s : State) : Host.Outcome State Fault Refusal := .next s

/-- R175 WR KSOUT: ignored, no error; the cursor does not move. -/
def execWrKsout (_v : Word64) (s : State) : Host.Outcome State Fault Refusal := .next s

/-- R175 WR RSV15: ignored, no error. -/
def execWrRsv15 (_v : Word64) (s : State) : Host.Outcome State Fault Refusal := .next s

end Sys2Proof.Machine
end

