-- ==== Sys2Proof/Machine/Dispatch.lean ====
section
/-! DEFINITION. The meaning of each instruction, one arm per row of the opcode table. -/

namespace Sys2Proof.Machine

def exec (i : Instr) (s : State) : Host.Outcome State Fault Refusal :=
  match i with
  | .wrKey k v => Sys2Proof.Machine.execWrKey k v s
  | .wrIv k v => Sys2Proof.Machine.execWrIv k v s
  | .wrCmd v => Sys2Proof.Machine.execWrCmd v s
  | .wrStatus v => Sys2Proof.Machine.execWrStatus v s
  | .wrKsout v => Sys2Proof.Machine.execWrKsout v s
  | .wrRsv15 v => Sys2Proof.Machine.execWrRsv15 v s
  | .rdKey k => Sys2Proof.Machine.execRdKey k s
  | .rdIv k => Sys2Proof.Machine.execRdIv k s
  | .rdCmd => Sys2Proof.Machine.execRdCmd s
  | .rdStatus => Sys2Proof.Machine.execRdStatus s
  | .rdKsout => Sys2Proof.Machine.execRdKsout s
  | .rdRsv15 => Sys2Proof.Machine.execRdRsv15 s
  | .nop => Sys2Proof.Machine.execNop s
  | .setup klen ivlen => Sys2Proof.Machine.execSetup klen ivlen s
  | .zeroize => Sys2Proof.Machine.execZeroize s
  | .clrerr => Sys2Proof.Machine.execClrerr s
  | .reserved w => Sys2Proof.Machine.execReserved w s

end Sys2Proof.Machine
end

