-- ==== Sys2Proof/Machine/HostRecord.lean ====
section
/-! DEFINITION. What the host keeps of the transactions it issues: the record of what it has staged
(70_reset_and_hazards.md R259) and the driver's tail, which every successful SETUP empties (45_stream_driver.md R200;
R253), with the driver's report of an older construction. -/

namespace Sys2Proof.Machine

/-- The instruction whose effect an instruction has: a WR CMD has the effect of the command it carries (R174). -/
def effectOf : Instr → Instr
  | .wrCmd v => decodeCmd v
  | .wrKey k v => .wrKey k v
  | .wrIv k v => .wrIv k v
  | .wrStatus v => .wrStatus v
  | .wrKsout v => .wrKsout v
  | .wrRsv15 v => .wrRsv15 v
  | .rdKey k => .rdKey k
  | .rdIv k => .rdIv k
  | .rdCmd => .rdCmd
  | .rdStatus => .rdStatus
  | .rdKsout => .rdKsout
  | .rdRsv15 => .rdRsv15
  | .nop => .nop
  | .setup a b => .setup a b
  | .zeroize => .zeroize
  | .clrerr => .clrerr
  | .reserved w => .reserved w

/-- R181, R200: the variant of the instance that an instruction builds; none unless it is a successful SETUP. -/
def setupVariant (i : Instr) : Option Variant :=
  match effectOf i with
  | .setup klen ivlen => variantOfLengths klen ivlen
  | .wrKey _ _ | .wrIv _ _ | .wrCmd _ | .wrStatus _ | .wrKsout _ | .wrRsv15 _ => none
  | .rdKey _ | .rdIv _ | .rdCmd | .rdStatus | .rdKsout | .rdRsv15 => none
  | .nop | .zeroize | .clrerr | .reserved _ => none

/-! ## The record of what is staged -/

/-- Every key word of the variant and every IV word is written (R259: all KW + 4 words). -/
def Staged.complete (g : Staged) : Variant → Bool
  | .v256 => g.key.get 0 && g.key.get 1 && g.key.get 2 && g.key.get 3 && g.iv.toList.all id
  | .v512 => g.key.toList.all id && g.iv.toList.all id

/-- R259: the record after an instruction. A write marks its register; SETUP, whatever its outcome, and ZEROIZE clear
the registers and so the record (R24, R25, R258). -/
def Staged.after (g : Staged) (i : Instr) : Staged :=
  match effectOf i with
  | .wrKey k _ => { g with key := g.key.set k.val true k.isLt }
  | .wrIv k _ => { g with iv := g.iv.set k.val true k.isLt }
  | .setup _ _ | .zeroize => .empty
  | .wrCmd _ | .wrStatus _ | .wrKsout _ | .wrRsv15 _ => g
  | .rdKey _ | .rdIv _ | .rdCmd | .rdStatus | .rdKsout | .rdRsv15 => g
  | .nop | .clrerr | .reserved _ => g

/-- R259: a successful SETUP before all its words are written. A SETUP with invalid lengths builds nothing and has no
number of words (log 24). -/
def Staged.tooEarly (g : Staged) (i : Instr) : Bool :=
  match setupVariant i with
  | none => false
  | some v => !g.complete v

/-- R259, 93 U9: the host fault of a host that is held to the discipline. -/
def State.hostFault (s : State) (i : Instr) : Bool := s.host.strict && s.host.staged.tooEarly i

/-- R200, R253: what the host does once its transaction has completed: it keeps its record and, after a successful
SETUP, whoever issued it, drops the tail (DEDUCED: in this step, log 17). The driver's report of an older construction
says nothing of the new instance and is withdrawn, so R201 applies to it again (log 15). -/
def State.hostAfter (s : State) (i : Instr) : State :=
  let t := s.setStaged (s.host.staged.after i)
  match setupVariant i with
  | none => t
  | some _ => (t.setTp 128).setReport .idle

end Sys2Proof.Machine
end

