-- ==== Sys2Proof/Machine/Transact.lean ====
section
/-! DEFINITION. One transaction: the host's check of it, the block's effect, the host's record of it. -/

namespace Sys2Proof.Machine

/-- The host's part of a transaction that has completed; a stop stays as it is. -/
def hostObserve (i : Instr) : Host.Outcome State Fault Refusal → Host.Outcome State Fault Refusal
  | .next t => .next (t.hostAfter i)
  | .fault r => .fault r
  | .refused r => .refused r

/-- R170, R259: the block runs the instruction, unless issuing it is a host fault. -/
def transact (i : Instr) (s : State) : Host.Outcome State Fault Refusal :=
  if s.hostFault i then .fault .setupBeforeStaged else hostObserve i (exec i s)

end Sys2Proof.Machine
end

