-- ==== Sys2Proof/Machine/Step.lean ====
section
/-! DEFINITION. One step of the machine: the host's next event takes effect, whole and in issue order
(20_memory.md R58, R62). -/

namespace Sys2Proof.Machine

/-- One event: a transaction runs its instruction (R170), reset resets the block (R250), the driver acts (R201 to
R206); with none, nothing happens (R263). -/
def step (s : State) : Host.Outcome State Fault Refusal :=
  match s.fetch with
  | none => stepIdle s
  | some (.transaction t, s') => transact (decodeTransaction t) s'
  | some (.reset, s') => stepReset s'
  | some (.driver op, s') => driverStep op s'

/-- The state with the transaction that carries a table word as the host's next event; a word the decoder rejects
is no transaction and changes nothing. -/
def State.withFetchWord (s : State) (nbits w : Nat) : State :=
  match tableTransaction nbits w with
  | .ok t => s.issueFirst [.transaction t]
  | .error _ => s

end Sys2Proof.Machine
end

