-- ==== Sys2Proof/Machine/ShiftRegister.lean ====
section
/-! DEFINITION. The shift-register view of the mixing engine (42_mixing.md R140): sixteen stages and a two-word
finite-state machine. The machine runs the in-place array; this is the second design R140 describes. -/

namespace Sys2Proof.Machine

/-- R140: before lane update t, stage k holds sigma(t+k); r0 and r1 are r0(t) and r1(t). -/
structure ShiftRegister where
  sigma : Vector Word64 16
  r0 : Word64
  r1 : Word64
deriving DecidableEq, Repr

/-- Stage `k`. -/
def ShiftRegister.stage (q : ShiftRegister) (k : Fin 16) : Word64 := rget q.sigma k

/-- Every stage moves down one place and `v` enters the last. -/
def ShiftRegister.shiftIn (q : ShiftRegister) (v : Word64) : Vector Word64 16 :=
  Vector.ofFn fun k => if h : k.val + 1 < 16 then q.stage ⟨k.val + 1, h⟩ else v

/-- R140: A(sigma(t)) ^ sigma(t+13) ^ Ainv(sigma(t+11)). -/
def ShiftRegister.feed (c : Config) (q : ShiftRegister) : Word64 :=
  fieldMul c (q.stage 0) ^^^ q.stage 13 ^^^ fieldMulInv c (q.stage 11)

/-- One lane update that puts `v` into the last stage: r0(t+1) = add64(r1(t), sigma(t+13)), r1(t+1) = T(r0(t)). -/
def ShiftRegister.update (c : Config) (q : ShiftRegister) (v : Word64) : ShiftRegister :=
  { sigma := q.shiftIn v, r0 := add64 q.r1 (q.stage 13), r1 := transform c q.r0 }

/-- R140, an INIT lane: F = add64(r0(t), sigma(t+15)) ^ r1(t). -/
def ShiftRegister.init (c : Config) (q : ShiftRegister) : ShiftRegister :=
  q.update c (q.feed c ^^^ (add64 q.r0 (q.stage 15) ^^^ q.r1))

/-- R140, a GEN lane: F = 0. -/
def ShiftRegister.gen (c : Config) (q : ShiftRegister) : ShiftRegister := q.update c (q.feed c)

/-- R140, the output of a GEN lane: add64(r0(t+1), sigma(t+16)) ^ r1(t+1) ^ sigma(t+1). -/
def ShiftRegister.output (c : Config) (q : ShiftRegister) : Word64 :=
  add64 (q.gen c).r0 ((q.gen c).stage 15) ^^^ (q.gen c).r1 ^^^ q.stage 1

/-- R140: the instance seen from lane `n` as a shift register: stage k is S[(n+k)%16]. -/
def CipherInstance.shiftView (x : CipherInstance) (n : Fin 16) : ShiftRegister :=
  { sigma := Vector.ofFn fun k => x.laneOff n k.val, r0 := x.R0, r1 := x.R1 }

end Sys2Proof.Machine
end

