-- ==== Sys2Proof/Safety.lean ====
section
/-! DEFINITION. What counts as a safe state and a safe host program: the invariant of the machine, and the host
discipline of 70_reset_and_hazards.md R258, R259. -/

namespace Sys2Proof.Machine

/-- The state invariant. -/
structure State.Inv (s : State) : Prop where
  /-- R23, R151: between transactions cur is in 0..15. -/
  cursor : s.inst.cur.val < 16
  /-- R27, R29: VARIANT reads 0 while READY = 0. -/
  variant : s.ready = false → s.variant = .v256
  /-- R36, R182: with no instance, S, R, G and cur are 0. -/
  cleared : s.ready = false → s.inst = .zero
  /-- R221, R223: ERR is 0 or a code that the block raises; 0x02 and 0x05..0xFF are never written. -/
  error : s.err = 0 ∨ s.err = 1 ∨ s.err = 3 ∨ s.err = 4
  /-- The host's data buffer keeps its canonical form. -/
  memory : s.host.mem.wf = true

/-- R181, R258: a staging register that the host has not written since the last clearing holds 0. -/
structure State.StagingInv (s : State) : Prop where
  key : ∀ i, s.host.staged.key.get i = false → rget s.key i = 0
  iv : ∀ i, s.host.staged.iv.get i = false → rget s.iv i = 0

/-! ## Host discipline -/

/-- R259: the record after one of the driver's actions and the transactions it puts on the port. A construction and a
disposal end with the staging registers cleared; `confirm` may end in a disposal, so nothing counts as written. -/
def Staged.afterDriver (g : Staged) : DriverOp → Staged
  | .construct _ _ | .confirm _ | .dispose => .empty
  | .apply _ _ | .takeWord _ | .rewind => g

/-- R259: a host program that never issues a SETUP before all its words are written. Reset clears the staging
registers, and the driver's construction writes its own words before its SETUP. -/
def disciplined (g : Staged) : List HostEvent → Bool
  | [] => true
  | .transaction t :: es => !g.tooEarly (decodeTransaction t) && disciplined (g.after (decodeTransaction t)) es
  | .reset :: es => disciplined .empty es
  | .driver op :: es => disciplined (g.afterDriver op) es

end Sys2Proof.Machine
end

