-- ==== Sys2Proof/Certificates/Slice0/Obligations.lean ====
section
/-! DEFINITION. The statements for the provers, from the numbered rules of the spec. A next state is written as a
record update of the state before, so each such equation is also its frame. -/

namespace Sys2Proof.Claims

open Sys2Proof.Machine

/-- Instructions one after another, stopping at the first fault or refusal. -/
def runInstrs : List Instr → State → Host.Outcome State Fault Refusal
  | [], s => .next s
  | i :: is, s =>
    match exec i s with
    | .next t => runInstrs is t
    | .fault r => .fault r
    | .refused r => .refused r

/-- The state in which a read has just returned `v` (R71). -/
def afterRead (s : State) (v : Word64) : State :=
  { s with host := { s.host with returned := v :: s.host.returned } }

/-- ERR after an error of this code (R226). -/
def errAfter (s : State) (code : BitVec 8) : BitVec 8 := if s.err = 0 then code else s.err

/-- The state with this program. -/
def withProgram (s : State) (p : List HostEvent) : State :=
  { s with host := { s.host with program := p } }

/-- KLEN of a variant (R120). -/
def klenOf : Variant → BitVec 8
  | .v256 => 32
  | .v512 => 64

/-- KW, the number of key words of a variant (R6). -/
def keyWordsOf : Variant → Nat
  | .v256 => 4
  | .v512 => 8

/-- Keystream word `j` of an instance whose cursor is 0 (R123), under the active configuration. -/
def streamWord (x : CipherInstance) (j : Nat) : Word64 :=
  ((genPass Config.active)^[j / 16] x).gamma ⟨j % 16, Nat.mod_lt _ (by decide)⟩

/-- Keystream byte `q`: byte (q mod 8) of word floor(q/8) (R55, R202). -/
def streamByte (x : CipherInstance) (q : Nat) : Byte := (streamWord x (q / 8)).extractLsb' (8 * (q % 8)) 8

/-- An instruction that builds no instance and erases none: no SETUP with valid lengths, no ZEROIZE. -/
def keepsInstance (i : Instr) : Prop :=
  (∀ a b, effectOf i = .setup a b → variantOfLengths a b = none) ∧ effectOf i ≠ .zeroize

end Sys2Proof.Claims

open Sys2Proof Sys2Proof.Machine Sys2Proof.Claims

/-! ## Writes and reads of the port -/

/-- R172, with R115 for its last corner case. -/
def Obligations.WriteKeyStagesOneWord : Prop :=
  ∀ (i : Fin 8) (v : Word64) (s : State), decodeTransaction ⟨0b10000 + BitVec.ofNat 5 i.val, v⟩ = .wrKey i v ∧
    ∃ t, exec (.wrKey i v) s = .next t ∧
    rget t.key i = v ∧ (∀ j, j ≠ i → rget t.key j = rget s.key j) ∧ t = { s with key := t.key } ∧
    (∀ w, exec (.wrKey i w) t = exec (.wrKey i w) s) ∧
    (4 ≤ i.val → ∀ c iv x, construct c .v256 t.key iv x = construct c .v256 s.key iv x)

/-- R173. -/
def Obligations.WriteIvStagesOneWord : Prop :=
  ∀ (i : Fin 4) (v : Word64) (s : State), decodeTransaction ⟨0b11000 + BitVec.ofNat 5 i.val, v⟩ = .wrIv i v ∧
    ∃ t, exec (.wrIv i v) s = .next t ∧
    rget t.iv i = v ∧ (∀ j, j ≠ i → rget t.iv j = rget s.iv j) ∧ t = { s with iv := t.iv } ∧
    (∀ w, exec (.wrIv i w) t = exec (.wrIv i w) s)

/-- R175. -/
def Obligations.IgnoredWritesChangeNothing : Prop :=
  ∀ (v : Word64) (s : State),
    decodeTransaction ⟨0b11101, v⟩ = .wrStatus v ∧ decodeTransaction ⟨0b11110, v⟩ = .wrKsout v ∧
    decodeTransaction ⟨0b11111, v⟩ = .wrRsv15 v ∧
    exec (.wrStatus v) s = .next s ∧ exec (.wrKsout v) s = .next s ∧ exec (.wrRsv15 v) s = .next s

/-- R176. -/
def Obligations.WriteOnlySlotsReadZero : Prop :=
  ∀ (i : Fin 8) (j : Fin 4) (s : State),
    decodeTransaction ⟨BitVec.ofNat 5 i.val, 0⟩ = .rdKey i ∧
    decodeTransaction ⟨0b01000 + BitVec.ofNat 5 j.val, 0⟩ = .rdIv j ∧
    decodeTransaction ⟨0b01100, 0⟩ = .rdCmd ∧ decodeTransaction ⟨0b01111, 0⟩ = .rdRsv15 ∧
    exec (.rdKey i) s = .next (afterRead s 0) ∧ exec (.rdIv j) s = .next (afterRead s 0) ∧
    exec .rdCmd s = .next (afterRead s 0) ∧ exec .rdRsv15 s = .next (afterRead s 0)

/-- R177, R29: the returned word field by field; nothing else changes. -/
def Obligations.StatusReadReturnsItsFields : Prop :=
  ∀ s : State, decodeTransaction ⟨0b01101, 0⟩ = .rdStatus ∧
    ∃ v : Word64, exec .rdStatus s = .next (afterRead s v) ∧
    v.getLsbD 0 = s.ready ∧ v.getLsbD 1 = decide (s.variant = .v512) ∧ v.extractLsb' 2 6 = 0 ∧
    v.extractLsb' 8 8 = s.err ∧ v.extractLsb' 16 48 = 0

/-- R224, R178: with no instance RD KSOUT returns 0 and changes nothing but ERR. -/
def Obligations.KeystreamReadWithNoInstance : Prop :=
  ∀ s : State, s.ready = false → exec .rdKsout s = .next { afterRead s 0 with err := errAfter s 0x03 }

/-- R150, R151: the word at the cursor; the refill in the transaction that brings the cursor to 16. -/
def Obligations.KeystreamReadReturnsTheWordAtTheCursor : Prop :=
  ∀ s : State, s.ready = true →
    (∀ h : s.inst.cur.val < 15, exec .rdKsout s =
      .next { afterRead s (rget s.inst.G ⟨s.inst.cur.val, by omega⟩) with
        inst := { s.inst with cur := ⟨s.inst.cur.val + 1, by omega⟩ } }) ∧
    (s.inst.cur = 15 → exec .rdKsout s =
      .next { afterRead s (rget s.inst.G 15) with inst := genPass Config.active { s.inst with cur := 16 } } ∧
      (genPass Config.active { s.inst with cur := 16 }).cur = 0)

/-! ## Commands -/

/-- R180. -/
def Obligations.NopChangesNothing : Prop := decodeCmd 0x0000000000000000 = .nop ∧ ∀ s : State, exec .nop s = .next s

/-- R122, R222: a SETUP with an invalid length clears the staging registers, records 0x01 and changes nothing else. -/
def Obligations.SetupWithInvalidLengthKeepsTheInstance : Prop :=
  ∀ (kl il : BitVec 8) (s : State), (kl ≠ 32 ∧ kl ≠ 64) ∨ il ≠ 32 →
    exec (.setup kl il) s = .next { s with
      err := errAfter s 0x01, key := Vector.replicate 8 0, iv := Vector.replicate 4 0 }

/-- R181, R119, R120: a SETUP with valid lengths. -/
def Obligations.SetupBuildsTheInstance : Prop :=
  ∀ (v : Variant) (s : State), ∃ x : CipherInstance,
    x = genPass Config.active (initPass Config.active (initPass Config.active
      (load Config.active v s.key s.iv s.inst))) ∧ x.cur = 0 ∧
    exec (.setup (klenOf v) 32) s = .next { s with
      inst := x, key := Vector.replicate 8 0, iv := Vector.replicate 4 0, ready := true, variant := v }

/-- R117, R110, R114: LOAD, slot by slot, for both variants. -/
def Obligations.LoadFillsEverySlot : Prop :=
  ∀ (c : Config) (key : Vector Word64 8) (iv : Vector Word64 4) (x : CipherInstance) (i : Fin 16),
    (load c .v256 key iv x).lane i =
      (let k := rget key (Fin.castLE (by decide) (c.slotMap256 i).keyWord)
       let w := match (c.slotMap256 i).ivWord with
         | none => k
         | some j => k ^^^ rget iv j
       if (c.slotMap256 i).complement then w ^^^ BitVec.allOnes 64 else w) ∧
    (load c .v512 key iv x).lane i =
      (let k := rget key (c.slotMap512 i).keyWord
       let w := match (c.slotMap512 i).ivWord with
         | none => k
         | some j => k ^^^ rget iv j
       if (c.slotMap512 i).complement then w ^^^ BitVec.allOnes 64 else w) ∧
    ∀ v, load c v key iv x = { x with S := (load c v key iv x).S, R0 := 0, R1 := 0 }

/-- R181, R253: nothing of the old instance survives a construction. -/
def Obligations.ConstructionForgetsTheOldInstance : Prop :=
  ∀ (c : Config) (v : Variant) (key : Vector Word64 8) (iv : Vector Word64 4) (x y : CipherInstance),
    construct c v key iv x = construct c v key iv y

/-- R115: in variant 256, whatever KEY[4..7] hold, the next state is the same, with KEY cleared. -/
def Obligations.Variant256IgnoresUpperKeyWords : Prop :=
  ∀ (s : State) (k : Vector Word64 8), (∀ i : Fin 8, i.val < 4 → rget k i = rget s.key i) →
    ∃ t, exec (.setup 32 32) s = .next t ∧ exec (.setup 32 32) { s with key := k } = .next t ∧
      t.key = Vector.replicate 8 0

/-- R182: every register of the instance and of staging is 0 after ZEROIZE, ERR is unchanged, and until the next
successful SETUP every RD KSOUT finds no instance. -/
def Obligations.ZeroizeErasesTheBlock : Prop :=
  decodeCmd 0x0000000000000002 = .zeroize ∧ ∀ s : State, ∃ t, exec .zeroize s = .next t ∧
    t = { s with
      inst := { S := Vector.replicate 16 0, R0 := 0, R1 := 0, G := Vector.replicate 16 0, cur := 0 }
      key := Vector.replicate 8 0, iv := Vector.replicate 4 0, ready := false, variant := .v256 } ∧
    ∀ (is : List Instr) (u : State), (∀ i ∈ is, ∀ a b, effectOf i = .setup a b → variantOfLengths a b = none) →
      runInstrs is t = .next u → exec .rdKsout u = .next { afterRead u 0 with err := errAfter u 0x03 }

/-- R183: CLRERR clears the code, touches nothing else, and the next error is recorded. -/
def Obligations.ClearErrorRearmsTheCode : Prop :=
  decodeCmd 0x0000000000000003 = .clrerr ∧ ∀ s : State, exec .clrerr s = .next { s with err := 0 } ∧
    ∀ e : ErrorKind, State.raise { s with err := 0 } e = { s with err := e.code }

/-- R184, R225: a reserved word raises IllegalCommand, as an instruction and as the data of a WR CMD, and nothing
but ERR changes. -/
def Obligations.ReservedWordChangesOnlyErr : Prop :=
  ∀ (w : Word64) (s : State), reservedWord w = true →
    exec (.reserved w) s = .next { s with err := errAfter s 0x04 } ∧
    exec (.wrCmd w) s = .next { s with err := errAfter s 0x04 }

/-- R174, R179, R227: a WR CMD completes, with the effect of the command its data word selects, the checks in the
order R179 writes them. -/
def Obligations.CommandWriteRunsItsCommand : Prop :=
  ∀ (v : Word64) (s : State),
    (∃ t, exec (.wrCmd v) s = .next t) ∧
    (v.extractLsb' 24 40 ≠ 0 → exec (.wrCmd v) s = .next { s with err := errAfter s 0x04 }) ∧
    (v.extractLsb' 24 40 = 0 →
      (v.extractLsb' 0 8 = 0x01 → exec (.wrCmd v) s = exec (.setup (v.extractLsb' 8 8) (v.extractLsb' 16 8)) s) ∧
      (0x04 ≤ v.extractLsb' 0 8 → exec (.wrCmd v) s = .next { s with err := errAfter s 0x04 }) ∧
      (v.extractLsb' 0 8 ≠ 0x01 → v.extractLsb' 8 16 ≠ 0 →
        exec (.wrCmd v) s = .next { s with err := errAfter s 0x04 }) ∧
      (v.extractLsb' 8 16 = 0 →
        (v.extractLsb' 0 8 = 0x00 → exec (.wrCmd v) s = exec .nop s) ∧
        (v.extractLsb' 0 8 = 0x02 → exec (.wrCmd v) s = exec .zeroize s) ∧
        (v.extractLsb' 0 8 = 0x03 → exec (.wrCmd v) s = exec .clrerr s)))

/-! ## Errors -/

/-- R226: raising records the first error only; no transaction but CLRERR clears a recorded code. -/
def Obligations.FirstErrorIsKept : Prop :=
  (∀ (s : State) (e : ErrorKind), s.raise e = { s with err := if s.err = 0 then e.code else s.err }) ∧
  (∀ (i : Instr) (s t : State), exec i s = .next t → s.err ≠ 0 → effectOf i ≠ .clrerr → t.err = s.err) ∧
  (∀ s : State, ∃ t, exec .clrerr s = .next t ∧ t.err = 0) ∧
  (∀ (s : State) (rest : List HostEvent), s.host.program = .reset :: rest → ∃ t, step s = .next t ∧ t.err = 0)

/-- R221, R227: which transaction records which code, and why. -/
def Obligations.EveryErrorCodeHasItsCause : Prop :=
  ∀ (i : Instr) (s t : State), exec i s = .next t → s.err = 0 → t.err ≠ 0 →
    (t.err = 0x01 ∧ ∃ a b, effectOf i = .setup a b ∧ ((a ≠ 32 ∧ a ≠ 64) ∨ b ≠ 32)) ∨
    (t.err = 0x03 ∧ i = .rdKsout ∧ s.ready = false) ∨
    (t.err = 0x04 ∧ ∃ w, effectOf i = .reserved w ∧ reservedWord w = true) ∨
    (t.err = 0x04 ∧ ∃ w, i = .reserved w)

/-- R231: a transaction that changes ERR leaves the instance, READY and VARIANT as they were. -/
def Obligations.ErrorsLeaveTheInstanceAlone : Prop :=
  ∀ (i : Instr) (s t : State), exec i s = .next t → t.err ≠ s.err →
    t.inst = s.inst ∧ t.ready = s.ready ∧ t.variant = s.variant

/-! ## What no other transaction changes -/

/-- R33, R162, R163: S, R, G, cur, READY and VARIANT change only by RD KSOUT, SETUP and ZEROIZE. -/
def Obligations.OnlySetupZeroizeAndKeystreamReadsChangeTheInstance : Prop :=
  ∀ (i : Instr) (s t : State), exec i s = .next t → keepsInstance i →
    t.ready = s.ready ∧ t.variant = s.variant ∧ (i ≠ .rdKsout → t.inst = s.inst)

/-- R24, R25: KEY and IV change only by their own writes, SETUP and ZEROIZE. -/
def Obligations.OnlyWritesSetupAndZeroizeChangeStaging : Prop :=
  ∀ (i : Instr) (s t : State), exec i s = .next t → (∀ a b, effectOf i ≠ .setup a b) → effectOf i ≠ .zeroize →
    ((∀ k v, i ≠ .wrKey k v) → t.key = s.key) ∧ ((∀ k v, i ≠ .wrIv k v) → t.iv = s.iv)

/-- R200, R51: the block's effect of an instruction changes nothing of the host but the list of returned values, by at
most one value. What the host itself does after its transaction is not the block's (SuccessfulSetupDropsTheTail). -/
def Obligations.BlockEffectLeavesTheHostAlone : Prop :=
  ∀ (i : Instr) (s t : State), exec i s = .next t →
    (∀ a, t.host.mem.readByte a = s.host.mem.readByte a) ∧
    t.host = { s.host with returned := t.host.returned } ∧
    (t.host.returned = s.host.returned ∨ ∃ v, t.host.returned = v :: s.host.returned)

/-- R61, R176: what a transaction returns does not depend on the staged key and IV. -/
def Obligations.StagedMaterialNeverReachesTheHost : Prop :=
  ∀ (i : Instr) (s₁ s₂ t₁ : State), s₂ = { s₁ with key := s₂.key, iv := s₂.iv } → exec i s₁ = .next t₁ →
    ∃ t₂, exec i s₂ = .next t₂ ∧ t₂.host = t₁.host ∧ t₂.err = t₁.err ∧
      (keepsInstance i → t₂ = { t₁ with key := t₂.key, iv := t₂.iv })

/-! ## The field unit and the mixing engine -/

/-- R95, R96, R97: the laws of the three primitives, for every configuration. -/
def Obligations.FieldUnitLaws : Prop :=
  ∀ (c : Config), (∀ x, fieldMulInv c (fieldMul c x) = x) ∧ (∀ x, fieldMul c (fieldMulInv c x) = x) ∧
    Function.Bijective (fieldMul c) ∧ Function.Bijective (transform c)

/-- R130, R131, R132: INIT_LANE(n) in terms of the values before it. -/
def Obligations.InitLaneFormula : Prop :=
  ∀ (c : Config) (n : Fin 16) (x : CipherInstance),
    (initLane c n x).lane n = fieldMul c (x.lane n) ^^^ x.lane (n + 13) ^^^ fieldMulInv c (x.lane (n + 11)) ^^^
      (x.R0 + x.lane (n + 15)) ^^^ x.R1 ∧
    (∀ m, m ≠ n → (initLane c n x).lane m = x.lane m) ∧
    (initLane c n x).R0 = x.R1 + x.lane (n + 13) ∧ (initLane c n x).R1 = transform c x.R0 ∧
    (initLane c n x).G = x.G ∧ (initLane c n x).cur = x.cur

/-- R135, R136, R132: GEN_LANE(n) in terms of the values before it; the output word reads the updated S[n] and R. -/
def Obligations.GenLaneFormula : Prop :=
  ∀ (c : Config) (n : Fin 16) (x : CipherInstance),
    (genLane c n x).lane n = fieldMul c (x.lane n) ^^^ x.lane (n + 13) ^^^ fieldMulInv c (x.lane (n + 11)) ∧
    (∀ m, m ≠ n → (genLane c n x).lane m = x.lane m) ∧
    (genLane c n x).R0 = x.R1 + x.lane (n + 13) ∧ (genLane c n x).R1 = transform c x.R0 ∧
    (genLane c n x).gamma n =
      ((x.R1 + x.lane (n + 13)) +
        (fieldMul c (x.lane n) ^^^ x.lane (n + 13) ^^^ fieldMulInv c (x.lane (n + 11)))) ^^^
      transform c x.R0 ^^^ x.lane (n + 1) ∧
    (∀ m, m ≠ n → (genLane c n x).gamma m = x.gamma m) ∧ (genLane c n x).cur = x.cur

/-- R131, R137, R139: in a generation pass lane n reads lanes n-3 and n-5 of the same pass once they are updated,
and the values from before the pass until then; cur ends at 0. -/
def Obligations.GenPassReadsCurrentLanes : Prop :=
  ∀ (c : Config) (x : CipherInstance) (n : Fin 16),
    (genPass c x).lane n = fieldMul c (x.lane n) ^^^
      (if 3 ≤ n.val then (genPass c x).lane (n - 3) else x.lane (n + 13)) ^^^
      fieldMulInv c (if 5 ≤ n.val then (genPass c x).lane (n - 5) else x.lane (n + 11)) ∧
    (genPass c x).cur = 0

/-- R140: the in-place array and the shift register are the same engine: lane by lane, for whole passes, and for the
sixteen output words of a generation pass. -/
def Obligations.ShiftRegisterViewAgrees : Prop :=
  ∀ (c : Config) (x : CipherInstance),
    (∀ n : Fin 16, (initLane c n x).shiftView (n + 1) = (x.shiftView n).init c ∧
      (genLane c n x).shiftView (n + 1) = (x.shiftView n).gen c ∧
      (genLane c n x).gamma n = (x.shiftView n).output c) ∧
    (initPass c x).shiftView 0 = (ShiftRegister.init c)^[16] (x.shiftView 0) ∧
    (genPass c x).shiftView 0 = (ShiftRegister.gen c)^[16] (x.shiftView 0) ∧
    ∀ n : Fin 16, (genPass c x).gamma n = ((ShiftRegister.gen c)^[n.val] (x.shiftView 0)).output c

/-- R141, R119: a construction is 32 INIT lane updates and then 16 GEN lane updates of the loaded state, and G holds
the outputs of those 16. -/
def Obligations.ConstructionRunsFortyEightLaneUpdates : Prop :=
  ∀ (c : Config) (v : Variant) (key : Vector Word64 8) (iv : Vector Word64 4) (x : CipherInstance),
    (construct c v key iv x).shiftView 0 =
      (ShiftRegister.gen c)^[16] ((ShiftRegister.init c)^[32] ((load c v key iv x).shiftView 0)) ∧
    ∀ n : Fin 16, (construct c v key iv x).gamma n =
      ((ShiftRegister.gen c)^[n.val] ((ShiftRegister.init c)^[32] ((load c v key iv x).shiftView 0))).output c

/-! ## The keystream -/

/-- R123, R150 to R152: read j+1 after the cursor was 0 returns keystream word j, and cur counts the reads mod 16. -/
def Obligations.KeystreamWordFormula : Prop :=
  ∀ (s : State) (j : Nat), s.ready = true → s.inst.cur = 0 →
    ∃ t, runInstrs (List.replicate (j + 1) .rdKsout) s = .next t ∧
      t.host.returned.head? = some (streamWord s.inst j) ∧ t.inst.cur.val = (j + 1) % 16 ∧
      t.host.returned.length = s.host.returned.length + (j + 1) ∧
      t = { s with inst := t.inst, host := { s.host with returned := t.host.returned } }

/-- R165, R34: two blocks set up with the same variant, key words and IV return the same words, whatever else they
held. -/
def Obligations.SameKeySameKeystream : Prop :=
  ∀ (v : Variant) (s₁ s₂ : State) (n : Nat),
    (∀ i : Fin 8, i.val < keyWordsOf v → rget s₁.key i = rget s₂.key i) → s₁.iv = s₂.iv →
    ∃ t₁ t₂, runInstrs (.setup (klenOf v) 32 :: List.replicate n .rdKsout) s₁ = .next t₁ ∧
      runInstrs (.setup (klenOf v) 32 :: List.replicate n .rdKsout) s₂ = .next t₂ ∧
      t₁.host.returned.length = s₁.host.returned.length + n ∧
      t₁.host.returned.take n = t₂.host.returned.take n ∧ t₁.inst = t₂.inst

/-- R162: other transactions between the KSOUT reads change no word: after them the instance, and so the next word,
is that of the reads alone. -/
def Obligations.InterleavingKeepsTheKeystream : Prop :=
  ∀ (is : List Instr) (s : State), s.ready = true → s.inst.cur.val < 16 → (∀ i ∈ is, keepsInstance i) →
    ∃ t u t' u' w, runInstrs is s = .next t ∧
      runInstrs (is.filter fun i => decide (i = .rdKsout)) s = .next u ∧ t.inst = u.inst ∧
      exec .rdKsout t = .next t' ∧ t'.host.returned = w :: t.host.returned ∧
      exec .rdKsout u = .next u' ∧ u'.host.returned = w :: u.host.returned

/-! ## Encoding -/

/-- R75: the whole map, pattern by pattern. -/
def Obligations.EncodingMapIsTheTable : Prop :=
  ∀ (i : Fin 8) (j : Fin 4) (kl il : BitVec 8) (v : Word64),
    decodeTransaction ⟨0b10000 + BitVec.ofNat 5 i.val, v⟩ = .wrKey i v ∧
    decodeTransaction ⟨0b11000 + BitVec.ofNat 5 j.val, v⟩ = .wrIv j v ∧
    decodeTransaction ⟨0b11100, v⟩ = .wrCmd v ∧ decodeTransaction ⟨0b11101, v⟩ = .wrStatus v ∧
    decodeTransaction ⟨0b11110, v⟩ = .wrKsout v ∧ decodeTransaction ⟨0b11111, v⟩ = .wrRsv15 v ∧
    decodeTransaction ⟨BitVec.ofNat 5 i.val, 0⟩ = .rdKey i ∧
    decodeTransaction ⟨0b01000 + BitVec.ofNat 5 j.val, 0⟩ = .rdIv j ∧
    decodeTransaction ⟨0b01100, 0⟩ = .rdCmd ∧ decodeTransaction ⟨0b01101, 0⟩ = .rdStatus ∧
    decodeTransaction ⟨0b01110, 0⟩ = .rdKsout ∧ decodeTransaction ⟨0b01111, 0⟩ = .rdRsv15 ∧
    decodeCmd 0x0000000000000000 = .nop ∧
    decodeCmd (0#40 ++ il ++ kl ++ 0x01#8) = .setup kl il ∧
    decodeCmd 0x0000000000000002 = .zeroize ∧ decodeCmd 0x0000000000000003 = .clrerr ∧
    (v ≠ 0x0000000000000000 → (∀ a b : BitVec 8, v ≠ 0#40 ++ b ++ a ++ 0x01#8) → v ≠ 0x0000000000000002 →
      v ≠ 0x0000000000000003 → decodeCmd v = .reserved v)

/-- R71 to R76: decoding an encoded well-formed instruction gives it back, for every instruction. -/
def Obligations.DecodeAfterEncode : Prop :=
  ∀ i : Instr, i.wellFormed = true → decode i.format (encode i) = .ok i

/-- R75, R76: every transaction and every command word decodes, to a well-formed instruction whose encoding is that
word again (for a read, whose DATA bits mean nothing, log 7, the same header with DATA 0). -/
def Obligations.EveryWordDecodesToOneInstruction : Prop :=
  (∀ t : Transaction, ∃ i : Instr, decode .ht (bytesOfTransaction t) = .ok i ∧ i.wellFormed = true ∧
    i.format = .ht ∧ encodeTransaction i = { t with data := if t.header.getLsbD 4 then t.data else 0 }) ∧
  (∀ w : Word64, ∃ i : Instr, decode .cmd (bytesLe w).toList = .ok i ∧ i.wellFormed = true ∧
    i.format = .cmd ∧ encodeCmd i = w ∧ encodeTransaction i = ⟨0b11100, w⟩)

/-- R76: the reserved words are the three kinds, and a SETUP word with RSV = 0 is none of them. -/
def Obligations.ReservedWordsAreTheThreeKinds : Prop :=
  ∀ w : Word64,
    (decodeCmd w = .reserved w ↔
      (4 ≤ (w.extractLsb' 0 8).toNat ∨ w.extractLsb' 24 40 ≠ 0 ∨
        ((w.extractLsb' 0 8 = 0 ∨ w.extractLsb' 0 8 = 2 ∨ w.extractLsb' 0 8 = 3) ∧ w.extractLsb' 8 16 ≠ 0))) ∧
    (w.extractLsb' 0 8 = 1 → w.extractLsb' 24 40 = 0 →
      decodeCmd w = .setup (w.extractLsb' 8 8) (w.extractLsb' 16 8))

/-- R99, R100: the little-endian codec and its inverse. -/
def Obligations.LittleEndianCodecInverts : Prop :=
  (∀ b : Vector Byte 8, bytesLe (wordLe b) = b) ∧ (∀ w : Word64, wordLe (bytesLe w) = w) ∧
  (∀ (w : Word64) (k : Fin 8), (bytesLe w).get k = w.extractLsb' (8 * k.val) 8) ∧
  ∀ b : Vector Byte 8, wordLe b = ∑ j : Fin 8, ((b.get j).setWidth 64 <<< (8 * j.val))

/-- R75, R80: words written out from the encoding tables. -/
def Obligations.WrittenOutWordsDecode : Prop :=
  decodeTableWord 8 0b10011 = some (.wrKey 3 0) ∧ decodeTableWord 8 0b11010 = some (.wrIv 2 0) ∧
  decodeTableWord 8 0b01110 = some .rdKsout ∧ decodeTableWord 8 0b01101 = some .rdStatus ∧
  decodeTableWord 64 0x0000000000202001 = some (.setup 32 32) ∧
  decodeTableWord 64 0x0000000000204001 = some (.setup 64 32) ∧
  decodeTableWord 64 0x0000000000000002 = some .zeroize ∧
  decodeTableWord 64 0x0000000100202001 = some (.reserved 0x0000000100202001)

/-! ## The machine -/

/-- R170, R62: the next transaction of the host's program, a list by the model's choice (log 3), runs the instruction
its bytes decode to, on the state with that transaction taken from the program; the host keeps its record and, after a
successful SETUP and no other transaction, empties its tail in this very step, as log 17 (DEDUCED) reads R200, and
withdraws the driver's report (log 15, DESIGN CHOICE). A host held to R259 stops at a SETUP issued too early (log 24). -/
def Obligations.StepRunsTheDecodedTransaction : Prop :=
  ∀ (s : State) (t : Transaction) (rest : List HostEvent) (i : Instr),
    s.host.program = .transaction t :: rest → decode .ht (bytesOfTransaction t) = .ok i →
    step s = (if (withProgram s rest).hostFault i = true then .fault .setupBeforeStaged
      else match exec i (withProgram s rest) with
        | .next u => .next { u with host := { u.host with
            staged := u.host.staged.after i
            tp := if (setupVariant i).isSome then 128 else u.host.tp
            report := if (setupVariant i).isSome then .idle else u.host.report } }
        | .fault r => .fault r
        | .refused r => .refused r)

/-- R15, R170, R174: every well-formed instruction, a command too, is run by the transaction that issues it. -/
def Obligations.StepRunsEveryIssuedInstruction : Prop :=
  ∀ (s : State) (i : Instr) (rest : List HostEvent), i.wellFormed = true →
    s.host.program = .transaction (encodeTransaction i) :: rest → step s = transact i (withProgram s rest)

/-- R200, R253: the transaction of a successful SETUP installs the instance and empties the driver's tail. That it does so
whoever issues it and in its own step, and that no other transaction (ZEROIZE, a failed SETUP) moves tp, is log 17
(DEDUCED). That it withdraws the driver's report, so that R201 applies again after a construction that failed, and that
no other transaction does, is log 15 (DESIGN CHOICE). -/
def Obligations.SuccessfulSetupDropsTheTail : Prop :=
  ∀ (s : State) (t : Transaction) (rest : List HostEvent), s.host.program = .transaction t :: rest →
    (∀ (w : Word64) (v : Variant), decodeTransaction t = .wrCmd w → decodeCmd w = .setup (klenOf v) 32 →
      s.hostFault (.wrCmd w) = false →
      ∃ u, step s = .next u ∧ u.host.tp = 128 ∧ u.inst = construct Config.active v s.key s.iv s.inst ∧
        u.ready = true ∧ u.variant = v ∧ u.host.tb = s.host.tb ∧ u.host.staged = .empty ∧
        u.host.report = .idle ∧ u.host.report.mayConsume = true) ∧
    ((∀ (w : Word64) (v : Variant), decodeTransaction t = .wrCmd w → decodeCmd w ≠ .setup (klenOf v) 32) →
      ∀ u, step s = .next u → u.host.tp = s.host.tp ∧ u.host.report = s.host.report)

/-- R36: every register of the block after reset. -/
def Obligations.ResetValues : Prop :=
  (∀ n, State.reset.inst.lane n = 0 ∧ State.reset.inst.gamma n = 0) ∧
  State.reset.inst.R0 = 0 ∧ State.reset.inst.R1 = 0 ∧ State.reset.inst.cur = 0 ∧
  (∀ i, rget State.reset.key i = 0) ∧ (∀ i, rget State.reset.iv i = 0) ∧
  State.reset.ready = false ∧ State.reset.variant = .v256 ∧ State.reset.err = 0

/-- R250, R251: a reset between transactions puts the block at its reset values; the host keeps its own state, its
record that nothing is staged apart, which is the model's reading (log 8). -/
def Obligations.ResetEventResetsTheBlock : Prop :=
  ∀ (s : State) (rest : List HostEvent), s.host.program = .reset :: rest →
    step s = .next { State.reset with host := { s.host with program := rest, staged := .empty } }

/-- The three invariants hold at reset (R36). -/
def Obligations.ResetMeetsTheInvariant : Prop :=
  State.reset.Inv ∧ State.reset.StagingInv ∧
    disciplined State.reset.host.staged State.reset.host.program = true

/-- R23, R27, R28, R36, R182: every step keeps the invariant. -/
def Obligations.StepKeepsTheInvariant : Prop := ∀ s t : State, s.Inv → step s = .next t → t.Inv

/-- R181, R258: a staging register that the host has not written since the last clearing holds 0, after every step. -/
def Obligations.UnwrittenStagingRegistersHoldZero : Prop :=
  ∀ s t : State, s.StagingInv → step s = .next t → t.StagingInv

/-- R170, R220: no transaction stops the block. The one stop is the host's own (EarlySetupIsAHostFault). -/
def Obligations.EveryTransactionCompletes : Prop :=
  ∀ (s : State) (t : Transaction) (rest : List HostEvent), s.Inv → s.host.program = .transaction t :: rest →
    s.hostFault (decodeTransaction t) = false →
    ∃ s', step s = .next s' ∧ s'.host.program = rest

/-! ## The host driver -/

/-- R14: a byte written to the host's data buffer is read back, every other byte is as before, and the buffer keeps
its canonical form, the model's choice (log 13). -/
def Obligations.HostBufferReadsWhatWasWritten : Prop :=
  ∀ (m : Memory) (a : Nat) (b : Byte), m.wf = true →
    (m.writeByte a b).wf = true ∧ (m.writeByte a b).readByte a = b ∧
    ∀ x, x ≠ a → (m.writeByte a b).readByte x = m.readByte x

/-- R161, R201: with the tail empty, APPLY_KEYSTREAM fetches the sixteen words of the buffer into TB, little-endian,
with one refill at the end, and comes back to the same call with tp = 0. The number of steps is the model's choice
(log 11). -/
def Obligations.EmptyTailFetchesOneBlock : Prop :=
  ∀ (s : State) (buf n : Nat) (rest : List HostEvent), s.ready = true → s.inst.cur = 0 → s.host.tp = 128 →
    s.host.report.mayConsume = true → s.host.program = .driver (.apply buf (n + 1)) :: rest →
    ∃ t, Sys2Proof.core.run 34 s = .next t ∧
      (∀ i : Fin 128, t.host.tb.get i =
        (rget s.inst.G ⟨i.val / 8, by omega⟩).extractLsb' (8 * (i.val % 8)) 8) ∧
      t.host.tp = 0 ∧ t.inst = genPass Config.active { s.inst with cur := 16 } ∧
      t.host.program = .driver (.apply buf (n + 1)) :: rest ∧ t.host.mem = s.host.mem

/-- R202: APPLY_KEYSTREAM on a fresh driver XORs byte p of the buffer with keystream byte p, for every length, and
changes no other byte. One byte a step and addresses without an upper end are the model's choice (log 11, log 13). -/
def Obligations.ApplyXorsTheKeystream : Prop :=
  ∀ (s : State) (buf len : Nat) (rest : List HostEvent), s.Inv → s.ready = true → s.inst.cur = 0 →
    s.host.tp = 128 → s.host.report.mayConsume = true → s.host.program = .driver (.apply buf len) :: rest →
    ∃ k t, Sys2Proof.core.run k s = .next t ∧ t.host.program = rest ∧
      (∀ p, p < len → t.host.mem.readByte (buf + p) = s.host.mem.readByte (buf + p) ^^^ streamByte s.inst p) ∧
      ∀ a, a < buf ∨ buf + len ≤ a → t.host.mem.readByte a = s.host.mem.readByte a

/-- R201, R202: one call of a+b bytes and two calls of a and b bytes end in the same state, from any tail.
One byte a step and addresses without an upper end are the model's choice (log 11, log 13). -/
def Obligations.SplitCallsEqualOneCall : Prop :=
  ∀ (s : State) (buf a b : Nat) (rest : List HostEvent), s.Inv →
    ∃ k₁ k₂ t, t.host.program = rest ∧
      Sys2Proof.core.run k₁
        (withProgram s (.driver (.apply buf a) :: .driver (.apply (buf + a) b) :: rest)) = .next t ∧
      Sys2Proof.core.run k₂ (withProgram s (.driver (.apply buf (a + b)) :: rest)) = .next t

/-- R203: a second instance in the same initial state, applied to what the first made of the buffer, gives the
buffer back. One byte a step and addresses without an upper end are the model's choice (log 11, log 13). -/
def Obligations.MatchedInstancesUndoEachOther : Prop :=
  ∀ (s₁ s₂ : State) (buf len : Nat) (rest : List HostEvent), s₁.Inv → s₂.Inv →
    s₁.ready = true → s₂.ready = true → s₁.inst = s₂.inst → s₁.inst.cur = 0 →
    s₁.host.tp = 128 → s₂.host.tp = 128 → s₁.host.report.mayConsume = true → s₂.host.report.mayConsume = true →
    ∃ k₁ t₁, Sys2Proof.core.run k₁ (withProgram s₁ (.driver (.apply buf len) :: rest)) = .next t₁ ∧
      t₁.host.program = rest ∧
      ∃ k₂ t₂, Sys2Proof.core.run k₂
          (withProgram { s₂ with host := { s₂.host with mem := t₁.host.mem } }
            (.driver (.apply buf len) :: rest)) = .next t₂ ∧
        t₂.host.program = rest ∧ ∀ a, t₂.host.mem.readByte a = s₁.host.mem.readByte a

/-- R204, R54: the driver's construction from key bytes and 32 IV bytes, with ERR clear: READY, the variant of the
key's length, the instance of the little-endian words, an empty tail, and the report that it is constructed. The
number of steps and the report are the model's choice (log 11, log 15). -/
def Obligations.DriverConstructsFromBytes : Prop :=
  ∀ (v : Variant) (s : State) (key iv : List Byte) (rest : List HostEvent), s.err = 0 →
    key.length = 8 * keyWordsOf v → iv.length = 32 → s.host.program = .driver (.construct key iv) :: rest →
    ∃ t K V, Sys2Proof.core.run (keyWordsOf v + 8) s = .next t ∧
      (∀ i : Fin 8, i.val < keyWordsOf v → (wordsLe key)[i.val]? = some (rget K i)) ∧
      (∀ j : Fin 4, (wordsLe iv)[j.val]? = some (rget V j)) ∧
      t.inst = construct Config.active v K V s.inst ∧ t.ready = true ∧ t.variant = v ∧ t.err = 0 ∧
      t.host.tp = 128 ∧ t.host.report = .constructed ∧ t.host.program = rest

/-- R204, R206, R121: a construction with lengths the port can express that cannot be confirmed, because a length is
wrong or an earlier error is recorded, is reported and ends in a disposal (log 16, DEDUCED). How the driver reports and
that it writes zeros is the model's choice (log 15, log 16). That APPLY_KEYSTREAM is a no-op while the report is a
failure, whatever READY is, is the model's choice too (log 15, DESIGN CHOICE): a later successful SETUP withdraws that
report. -/
def Obligations.FailedConstructionDisposes : Prop :=
  (∀ (s : State) (key iv : List Byte) (rest : List HostEvent), key.length ≤ 255 → iv.length ≤ 255 →
    s.err ≠ 0 ∨ ¬((key.length = 32 ∨ key.length = 64) ∧ iv.length = 32) →
    s.host.program = .driver (.construct key iv) :: rest →
    ∃ k t v, Sys2Proof.core.run k s = .next t ∧ t.host.program = rest ∧ t.host.report = .notConfirmed v ∧
      t.inst = .zero ∧ t.key = Vector.replicate 8 0 ∧ t.iv = Vector.replicate 4 0 ∧ t.ready = false ∧
      t.variant = .v256 ∧ t.err = errAfter s 0x01 ∧ t.host.tb = Vector.replicate 128 0 ∧ t.host.mem = s.host.mem) ∧
  (∀ (s : State) (buf len : Nat) (rest : List HostEvent),
    s.host.report = .invalidLength ∨ (∃ v, s.host.report = .notConfirmed v) →
    s.host.program = .driver (.apply buf len) :: rest → step s = .next (withProgram s rest))

/-- R205: a length above 255 bytes is reported by the driver with no SETUP issued. That the rejection is an early error
of R206, and so ends in a disposal, which erases an older live instance too, is log 16 (DEDUCED). How the driver reports
is the model's choice (log 15, DESIGN CHOICE), and so is that TB is overwritten with zeros and that tp keeps its value
(log 16, DESIGN CHOICE). -/
def Obligations.DriverRejectsLongLengths : Prop :=
  ∀ (s : State) (key iv : List Byte) (rest : List HostEvent), 255 < key.length ∨ 255 < iv.length →
    s.host.program = .driver (.construct key iv) :: rest →
    Sys2Proof.core.run 2 s = .next { s with
      inst := .zero, key := Vector.replicate 8 0, iv := Vector.replicate 4 0, ready := false, variant := .v256,
      host := { s.host with
        program := rest, report := .invalidLength, tb := Vector.replicate 128 0, staged := .empty } }

/-- R206, R182: disposal zeroizes the block. TB is overwritten with zeros and tp keeps its value: the model's choice
(log 16). -/
def Obligations.DisposalErasesBlockAndTail : Prop :=
  ∀ (s : State) (rest : List HostEvent), s.host.program = .driver .dispose :: rest →
    Sys2Proof.core.run 2 s = .next { s with
      inst := .zero, key := Vector.replicate 8 0, iv := Vector.replicate 4 0, ready := false, variant := .v256,
      host := { s.host with program := rest, tb := Vector.replicate 128 0, staged := .empty } }

/-- R259, R258: a host program that writes every word before each SETUP builds an instance that does not depend on
what the staging registers held before it. The check on programs is the model's (log 23). -/
def Obligations.DisciplinedSetupUsesOnlyWrittenWords : Prop :=
  ∀ (v : Variant) (is : List Instr) (s₁ s₂ : State), s₁.inst = s₂.inst → s₁.ready = s₂.ready →
    (s₁.ready = true → s₁.inst.cur.val < 16) → (∀ i ∈ is, i.wellFormed = true) →
    disciplined .empty ((is ++ [Instr.setup (klenOf v) 32]).map fun i => .transaction (encodeTransaction i)) = true →
    ∃ t₁ t₂, runInstrs (is ++ [.setup (klenOf v) 32]) s₁ = .next t₁ ∧
      runInstrs (is ++ [.setup (klenOf v) 32]) s₂ = .next t₂ ∧ t₁.inst = t₂.inst

/-- R259, R258, 93 U9: a SETUP with valid lengths before all KW + 4 words are written stops a host that is held to the
discipline; for any other host the block uses the staged values. Which hosts are held to it is the model's (log 24). -/
def Obligations.EarlySetupIsAHostFault : Prop :=
  ∀ (s : State) (t : Transaction) (rest : List HostEvent) (w : Word64) (v : Variant),
    s.host.program = .transaction t :: rest → decodeTransaction t = .wrCmd w → decodeCmd w = .setup (klenOf v) 32 →
    (∃ i : Fin 8, i.val < keyWordsOf v ∧ s.host.staged.key.get i = false) ∨
      (∃ j : Fin 4, s.host.staged.iv.get j = false) →
    (s.host.strict = true → step s = .fault .setupBeforeStaged) ∧
    (s.host.strict = false → ∃ u, step s = .next u ∧ u.inst = construct Config.active v s.key s.iv s.inst)

/-- R259: a disciplined host program, with resets and driver actions in it, never issues a SETUP too early, and what
is left of it after a step is disciplined. The check on programs is the model's (log 23). -/
def Obligations.DisciplinedProgramsNeverSetUpEarly : Prop :=
  ∀ s : State, disciplined s.host.staged s.host.program = true →
    step s ≠ .fault .setupBeforeStaged ∧
    ∀ t, step s = .next t → disciplined t.host.staged t.host.program = true
end

