-- ==== Sys2Proof/Laws/State.lean ====
section
/-! SUPPORT. One lemma per field per update of the state records, each true by rfl, so that no later proof unfolds
a record update. -/

namespace Sys2Proof.Machine

/-! ## The cipher instance -/
@[simp] theorem CipherInstance.setLane_S (x : CipherInstance) (n : Fin 16) (v : Word64) : (x.setLane n v).S = rset x.S n v := rfl
@[simp] theorem CipherInstance.setLane_R0 (x : CipherInstance) (n : Fin 16) (v : Word64) : (x.setLane n v).R0 = x.R0 := rfl
@[simp] theorem CipherInstance.setLane_R1 (x : CipherInstance) (n : Fin 16) (v : Word64) : (x.setLane n v).R1 = x.R1 := rfl
@[simp] theorem CipherInstance.setLane_G (x : CipherInstance) (n : Fin 16) (v : Word64) : (x.setLane n v).G = x.G := rfl
@[simp] theorem CipherInstance.setLane_cur (x : CipherInstance) (n : Fin 16) (v : Word64) : (x.setLane n v).cur = x.cur := rfl

@[simp] theorem CipherInstance.setGamma_S (x : CipherInstance) (n : Fin 16) (v : Word64) : (x.setGamma n v).S = x.S := rfl
@[simp] theorem CipherInstance.setGamma_R0 (x : CipherInstance) (n : Fin 16) (v : Word64) : (x.setGamma n v).R0 = x.R0 := rfl
@[simp] theorem CipherInstance.setGamma_R1 (x : CipherInstance) (n : Fin 16) (v : Word64) : (x.setGamma n v).R1 = x.R1 := rfl
@[simp] theorem CipherInstance.setGamma_G (x : CipherInstance) (n : Fin 16) (v : Word64) : (x.setGamma n v).G = rset x.G n v := rfl
@[simp] theorem CipherInstance.setGamma_cur (x : CipherInstance) (n : Fin 16) (v : Word64) : (x.setGamma n v).cur = x.cur := rfl

@[simp] theorem CipherInstance.setR_S (x : CipherInstance) (a b : Word64) : (x.setR a b).S = x.S := rfl
@[simp] theorem CipherInstance.setR_R0 (x : CipherInstance) (a b : Word64) : (x.setR a b).R0 = a := rfl
@[simp] theorem CipherInstance.setR_R1 (x : CipherInstance) (a b : Word64) : (x.setR a b).R1 = b := rfl
@[simp] theorem CipherInstance.setR_G (x : CipherInstance) (a b : Word64) : (x.setR a b).G = x.G := rfl
@[simp] theorem CipherInstance.setR_cur (x : CipherInstance) (a b : Word64) : (x.setR a b).cur = x.cur := rfl

@[simp] theorem CipherInstance.setCur_S (x : CipherInstance) (c : Fin 17) : (x.setCur c).S = x.S := rfl
@[simp] theorem CipherInstance.setCur_R0 (x : CipherInstance) (c : Fin 17) : (x.setCur c).R0 = x.R0 := rfl
@[simp] theorem CipherInstance.setCur_R1 (x : CipherInstance) (c : Fin 17) : (x.setCur c).R1 = x.R1 := rfl
@[simp] theorem CipherInstance.setCur_G (x : CipherInstance) (c : Fin 17) : (x.setCur c).G = x.G := rfl
@[simp] theorem CipherInstance.setCur_cur (x : CipherInstance) (c : Fin 17) : (x.setCur c).cur = c := rfl

/-! ## The block's registers -/

@[simp] theorem State.setKey_inst (s : State) (i : Fin 8) (v : Word64) : (s.setKey i v).inst = s.inst := rfl
@[simp] theorem State.setKey_key (s : State) (i : Fin 8) (v : Word64) : (s.setKey i v).key = rset s.key i v := rfl
@[simp] theorem State.setKey_iv (s : State) (i : Fin 8) (v : Word64) : (s.setKey i v).iv = s.iv := rfl
@[simp] theorem State.setKey_ready (s : State) (i : Fin 8) (v : Word64) : (s.setKey i v).ready = s.ready := rfl
@[simp] theorem State.setKey_variant (s : State) (i : Fin 8) (v : Word64) : (s.setKey i v).variant = s.variant := rfl
@[simp] theorem State.setKey_err (s : State) (i : Fin 8) (v : Word64) : (s.setKey i v).err = s.err := rfl
@[simp] theorem State.setKey_host (s : State) (i : Fin 8) (v : Word64) : (s.setKey i v).host = s.host := rfl

@[simp] theorem State.setIv_inst (s : State) (i : Fin 4) (v : Word64) : (s.setIv i v).inst = s.inst := rfl
@[simp] theorem State.setIv_key (s : State) (i : Fin 4) (v : Word64) : (s.setIv i v).key = s.key := rfl
@[simp] theorem State.setIv_iv (s : State) (i : Fin 4) (v : Word64) : (s.setIv i v).iv = rset s.iv i v := rfl
@[simp] theorem State.setIv_ready (s : State) (i : Fin 4) (v : Word64) : (s.setIv i v).ready = s.ready := rfl
@[simp] theorem State.setIv_variant (s : State) (i : Fin 4) (v : Word64) : (s.setIv i v).variant = s.variant := rfl
@[simp] theorem State.setIv_err (s : State) (i : Fin 4) (v : Word64) : (s.setIv i v).err = s.err := rfl
@[simp] theorem State.setIv_host (s : State) (i : Fin 4) (v : Word64) : (s.setIv i v).host = s.host := rfl

@[simp] theorem State.clearStaging_inst (s : State) : (s.clearStaging).inst = s.inst := rfl
@[simp] theorem State.clearStaging_key (s : State) : (s.clearStaging).key = Vector.replicate 8 0 := rfl
@[simp] theorem State.clearStaging_iv (s : State) : (s.clearStaging).iv = Vector.replicate 4 0 := rfl
@[simp] theorem State.clearStaging_ready (s : State) : (s.clearStaging).ready = s.ready := rfl
@[simp] theorem State.clearStaging_variant (s : State) : (s.clearStaging).variant = s.variant := rfl
@[simp] theorem State.clearStaging_err (s : State) : (s.clearStaging).err = s.err := rfl
@[simp] theorem State.clearStaging_host (s : State) : (s.clearStaging).host = s.host := rfl

@[simp] theorem State.setInst_inst (s : State) (x : CipherInstance) : (s.setInst x).inst = x := rfl
@[simp] theorem State.setInst_key (s : State) (x : CipherInstance) : (s.setInst x).key = s.key := rfl
@[simp] theorem State.setInst_iv (s : State) (x : CipherInstance) : (s.setInst x).iv = s.iv := rfl
@[simp] theorem State.setInst_ready (s : State) (x : CipherInstance) : (s.setInst x).ready = s.ready := rfl
@[simp] theorem State.setInst_variant (s : State) (x : CipherInstance) : (s.setInst x).variant = s.variant := rfl
@[simp] theorem State.setInst_err (s : State) (x : CipherInstance) : (s.setInst x).err = s.err := rfl
@[simp] theorem State.setInst_host (s : State) (x : CipherInstance) : (s.setInst x).host = s.host := rfl

@[simp] theorem State.setReady_inst (s : State) (r : Bool) (v : Variant) : (s.setReady r v).inst = s.inst := rfl
@[simp] theorem State.setReady_key (s : State) (r : Bool) (v : Variant) : (s.setReady r v).key = s.key := rfl
@[simp] theorem State.setReady_iv (s : State) (r : Bool) (v : Variant) : (s.setReady r v).iv = s.iv := rfl
@[simp] theorem State.setReady_ready (s : State) (r : Bool) (v : Variant) : (s.setReady r v).ready = r := rfl
@[simp] theorem State.setReady_variant (s : State) (r : Bool) (v : Variant) : (s.setReady r v).variant = v := rfl
@[simp] theorem State.setReady_err (s : State) (r : Bool) (v : Variant) : (s.setReady r v).err = s.err := rfl
@[simp] theorem State.setReady_host (s : State) (r : Bool) (v : Variant) : (s.setReady r v).host = s.host := rfl

@[simp] theorem State.clearErr_inst (s : State) : (s.clearErr).inst = s.inst := rfl
@[simp] theorem State.clearErr_key (s : State) : (s.clearErr).key = s.key := rfl
@[simp] theorem State.clearErr_iv (s : State) : (s.clearErr).iv = s.iv := rfl
@[simp] theorem State.clearErr_ready (s : State) : (s.clearErr).ready = s.ready := rfl
@[simp] theorem State.clearErr_variant (s : State) : (s.clearErr).variant = s.variant := rfl
@[simp] theorem State.clearErr_err (s : State) : (s.clearErr).err = 0 := rfl
@[simp] theorem State.clearErr_host (s : State) : (s.clearErr).host = s.host := rfl

@[simp] theorem State.resetBlock_inst (s : State) : (s.resetBlock).inst = .zero := rfl
@[simp] theorem State.resetBlock_key (s : State) : (s.resetBlock).key = Vector.replicate 8 0 := rfl
@[simp] theorem State.resetBlock_iv (s : State) : (s.resetBlock).iv = Vector.replicate 4 0 := rfl
@[simp] theorem State.resetBlock_ready (s : State) : (s.resetBlock).ready = false := rfl
@[simp] theorem State.resetBlock_variant (s : State) : (s.resetBlock).variant = .v256 := rfl
@[simp] theorem State.resetBlock_err (s : State) : (s.resetBlock).err = 0 := rfl
@[simp] theorem State.resetBlock_host (s : State) : (s.resetBlock).host = { s.host with staged := .empty } := rfl

/-! ## The host -/

@[simp] theorem State.returns_inst (s : State) (v : Word64) : (s.returns v).inst = s.inst := rfl
@[simp] theorem State.returns_key (s : State) (v : Word64) : (s.returns v).key = s.key := rfl
@[simp] theorem State.returns_iv (s : State) (v : Word64) : (s.returns v).iv = s.iv := rfl
@[simp] theorem State.returns_ready (s : State) (v : Word64) : (s.returns v).ready = s.ready := rfl
@[simp] theorem State.returns_variant (s : State) (v : Word64) : (s.returns v).variant = s.variant := rfl
@[simp] theorem State.returns_err (s : State) (v : Word64) : (s.returns v).err = s.err := rfl
@[simp] theorem State.returns_host_program (s : State) (v : Word64) : (s.returns v).host.program = s.host.program := rfl
@[simp] theorem State.returns_host_returned (s : State) (v : Word64) : (s.returns v).host.returned = v :: s.host.returned := rfl
@[simp] theorem State.returns_host_tb (s : State) (v : Word64) : (s.returns v).host.tb = s.host.tb := rfl
@[simp] theorem State.returns_host_tp (s : State) (v : Word64) : (s.returns v).host.tp = s.host.tp := rfl
@[simp] theorem State.returns_host_mem (s : State) (v : Word64) : (s.returns v).host.mem = s.host.mem := rfl
@[simp] theorem State.returns_host_report (s : State) (v : Word64) : (s.returns v).host.report = s.host.report := rfl
@[simp] theorem State.returns_host_staged (s : State) (v : Word64) : (s.returns v).host.staged = s.host.staged := rfl
@[simp] theorem State.returns_host_strict (s : State) (v : Word64) : (s.returns v).host.strict = s.host.strict := rfl

@[simp] theorem State.setProgram_inst (s : State) (p : List HostEvent) : (s.setProgram p).inst = s.inst := rfl
@[simp] theorem State.setProgram_key (s : State) (p : List HostEvent) : (s.setProgram p).key = s.key := rfl
@[simp] theorem State.setProgram_iv (s : State) (p : List HostEvent) : (s.setProgram p).iv = s.iv := rfl
@[simp] theorem State.setProgram_ready (s : State) (p : List HostEvent) : (s.setProgram p).ready = s.ready := rfl
@[simp] theorem State.setProgram_variant (s : State) (p : List HostEvent) : (s.setProgram p).variant = s.variant := rfl
@[simp] theorem State.setProgram_err (s : State) (p : List HostEvent) : (s.setProgram p).err = s.err := rfl
@[simp] theorem State.setProgram_host_program (s : State) (p : List HostEvent) : (s.setProgram p).host.program = p := rfl
@[simp] theorem State.setProgram_host_returned (s : State) (p : List HostEvent) : (s.setProgram p).host.returned = s.host.returned := rfl
@[simp] theorem State.setProgram_host_tb (s : State) (p : List HostEvent) : (s.setProgram p).host.tb = s.host.tb := rfl
@[simp] theorem State.setProgram_host_tp (s : State) (p : List HostEvent) : (s.setProgram p).host.tp = s.host.tp := rfl
@[simp] theorem State.setProgram_host_mem (s : State) (p : List HostEvent) : (s.setProgram p).host.mem = s.host.mem := rfl
@[simp] theorem State.setProgram_host_report (s : State) (p : List HostEvent) : (s.setProgram p).host.report = s.host.report := rfl
@[simp] theorem State.setProgram_host_staged (s : State) (p : List HostEvent) : (s.setProgram p).host.staged = s.host.staged := rfl
@[simp] theorem State.setProgram_host_strict (s : State) (p : List HostEvent) : (s.setProgram p).host.strict = s.host.strict := rfl

@[simp] theorem State.issueFirst_inst (s : State) (es : List HostEvent) : (s.issueFirst es).inst = s.inst := rfl
@[simp] theorem State.issueFirst_key (s : State) (es : List HostEvent) : (s.issueFirst es).key = s.key := rfl
@[simp] theorem State.issueFirst_iv (s : State) (es : List HostEvent) : (s.issueFirst es).iv = s.iv := rfl
@[simp] theorem State.issueFirst_ready (s : State) (es : List HostEvent) : (s.issueFirst es).ready = s.ready := rfl
@[simp] theorem State.issueFirst_variant (s : State) (es : List HostEvent) : (s.issueFirst es).variant = s.variant := rfl
@[simp] theorem State.issueFirst_err (s : State) (es : List HostEvent) : (s.issueFirst es).err = s.err := rfl
@[simp] theorem State.issueFirst_host_program (s : State) (es : List HostEvent) : (s.issueFirst es).host.program = es ++ s.host.program := rfl
@[simp] theorem State.issueFirst_host_returned (s : State) (es : List HostEvent) : (s.issueFirst es).host.returned = s.host.returned := rfl
@[simp] theorem State.issueFirst_host_tb (s : State) (es : List HostEvent) : (s.issueFirst es).host.tb = s.host.tb := rfl
@[simp] theorem State.issueFirst_host_tp (s : State) (es : List HostEvent) : (s.issueFirst es).host.tp = s.host.tp := rfl
@[simp] theorem State.issueFirst_host_mem (s : State) (es : List HostEvent) : (s.issueFirst es).host.mem = s.host.mem := rfl
@[simp] theorem State.issueFirst_host_report (s : State) (es : List HostEvent) : (s.issueFirst es).host.report = s.host.report := rfl
@[simp] theorem State.issueFirst_host_staged (s : State) (es : List HostEvent) : (s.issueFirst es).host.staged = s.host.staged := rfl
@[simp] theorem State.issueFirst_host_strict (s : State) (es : List HostEvent) : (s.issueFirst es).host.strict = s.host.strict := rfl

@[simp] theorem State.setTb_inst (s : State) (tb : Vector Byte 128) : (s.setTb tb).inst = s.inst := rfl
@[simp] theorem State.setTb_key (s : State) (tb : Vector Byte 128) : (s.setTb tb).key = s.key := rfl
@[simp] theorem State.setTb_iv (s : State) (tb : Vector Byte 128) : (s.setTb tb).iv = s.iv := rfl
@[simp] theorem State.setTb_ready (s : State) (tb : Vector Byte 128) : (s.setTb tb).ready = s.ready := rfl
@[simp] theorem State.setTb_variant (s : State) (tb : Vector Byte 128) : (s.setTb tb).variant = s.variant := rfl
@[simp] theorem State.setTb_err (s : State) (tb : Vector Byte 128) : (s.setTb tb).err = s.err := rfl
@[simp] theorem State.setTb_host_program (s : State) (tb : Vector Byte 128) : (s.setTb tb).host.program = s.host.program := rfl
@[simp] theorem State.setTb_host_returned (s : State) (tb : Vector Byte 128) : (s.setTb tb).host.returned = s.host.returned := rfl
@[simp] theorem State.setTb_host_tb (s : State) (tb : Vector Byte 128) : (s.setTb tb).host.tb = tb := rfl
@[simp] theorem State.setTb_host_tp (s : State) (tb : Vector Byte 128) : (s.setTb tb).host.tp = s.host.tp := rfl
@[simp] theorem State.setTb_host_mem (s : State) (tb : Vector Byte 128) : (s.setTb tb).host.mem = s.host.mem := rfl
@[simp] theorem State.setTb_host_report (s : State) (tb : Vector Byte 128) : (s.setTb tb).host.report = s.host.report := rfl
@[simp] theorem State.setTb_host_staged (s : State) (tb : Vector Byte 128) : (s.setTb tb).host.staged = s.host.staged := rfl
@[simp] theorem State.setTb_host_strict (s : State) (tb : Vector Byte 128) : (s.setTb tb).host.strict = s.host.strict := rfl

@[simp] theorem State.setTp_inst (s : State) (tp : Fin 129) : (s.setTp tp).inst = s.inst := rfl
@[simp] theorem State.setTp_key (s : State) (tp : Fin 129) : (s.setTp tp).key = s.key := rfl
@[simp] theorem State.setTp_iv (s : State) (tp : Fin 129) : (s.setTp tp).iv = s.iv := rfl
@[simp] theorem State.setTp_ready (s : State) (tp : Fin 129) : (s.setTp tp).ready = s.ready := rfl
@[simp] theorem State.setTp_variant (s : State) (tp : Fin 129) : (s.setTp tp).variant = s.variant := rfl
@[simp] theorem State.setTp_err (s : State) (tp : Fin 129) : (s.setTp tp).err = s.err := rfl
@[simp] theorem State.setTp_host_program (s : State) (tp : Fin 129) : (s.setTp tp).host.program = s.host.program := rfl
@[simp] theorem State.setTp_host_returned (s : State) (tp : Fin 129) : (s.setTp tp).host.returned = s.host.returned := rfl
@[simp] theorem State.setTp_host_tb (s : State) (tp : Fin 129) : (s.setTp tp).host.tb = s.host.tb := rfl
@[simp] theorem State.setTp_host_tp (s : State) (tp : Fin 129) : (s.setTp tp).host.tp = tp := rfl
@[simp] theorem State.setTp_host_mem (s : State) (tp : Fin 129) : (s.setTp tp).host.mem = s.host.mem := rfl
@[simp] theorem State.setTp_host_report (s : State) (tp : Fin 129) : (s.setTp tp).host.report = s.host.report := rfl
@[simp] theorem State.setTp_host_staged (s : State) (tp : Fin 129) : (s.setTp tp).host.staged = s.host.staged := rfl
@[simp] theorem State.setTp_host_strict (s : State) (tp : Fin 129) : (s.setTp tp).host.strict = s.host.strict := rfl

@[simp] theorem State.setMem_inst (s : State) (m : Memory) : (s.setMem m).inst = s.inst := rfl
@[simp] theorem State.setMem_key (s : State) (m : Memory) : (s.setMem m).key = s.key := rfl
@[simp] theorem State.setMem_iv (s : State) (m : Memory) : (s.setMem m).iv = s.iv := rfl
@[simp] theorem State.setMem_ready (s : State) (m : Memory) : (s.setMem m).ready = s.ready := rfl
@[simp] theorem State.setMem_variant (s : State) (m : Memory) : (s.setMem m).variant = s.variant := rfl
@[simp] theorem State.setMem_err (s : State) (m : Memory) : (s.setMem m).err = s.err := rfl
@[simp] theorem State.setMem_host_program (s : State) (m : Memory) : (s.setMem m).host.program = s.host.program := rfl
@[simp] theorem State.setMem_host_returned (s : State) (m : Memory) : (s.setMem m).host.returned = s.host.returned := rfl
@[simp] theorem State.setMem_host_tb (s : State) (m : Memory) : (s.setMem m).host.tb = s.host.tb := rfl
@[simp] theorem State.setMem_host_tp (s : State) (m : Memory) : (s.setMem m).host.tp = s.host.tp := rfl
@[simp] theorem State.setMem_host_mem (s : State) (m : Memory) : (s.setMem m).host.mem = m := rfl
@[simp] theorem State.setMem_host_report (s : State) (m : Memory) : (s.setMem m).host.report = s.host.report := rfl
@[simp] theorem State.setMem_host_staged (s : State) (m : Memory) : (s.setMem m).host.staged = s.host.staged := rfl
@[simp] theorem State.setMem_host_strict (s : State) (m : Memory) : (s.setMem m).host.strict = s.host.strict := rfl

@[simp] theorem State.setReport_inst (s : State) (r : DriverReport) : (s.setReport r).inst = s.inst := rfl
@[simp] theorem State.setReport_key (s : State) (r : DriverReport) : (s.setReport r).key = s.key := rfl
@[simp] theorem State.setReport_iv (s : State) (r : DriverReport) : (s.setReport r).iv = s.iv := rfl
@[simp] theorem State.setReport_ready (s : State) (r : DriverReport) : (s.setReport r).ready = s.ready := rfl
@[simp] theorem State.setReport_variant (s : State) (r : DriverReport) : (s.setReport r).variant = s.variant := rfl
@[simp] theorem State.setReport_err (s : State) (r : DriverReport) : (s.setReport r).err = s.err := rfl
@[simp] theorem State.setReport_host_program (s : State) (r : DriverReport) : (s.setReport r).host.program = s.host.program := rfl
@[simp] theorem State.setReport_host_returned (s : State) (r : DriverReport) : (s.setReport r).host.returned = s.host.returned := rfl
@[simp] theorem State.setReport_host_tb (s : State) (r : DriverReport) : (s.setReport r).host.tb = s.host.tb := rfl
@[simp] theorem State.setReport_host_tp (s : State) (r : DriverReport) : (s.setReport r).host.tp = s.host.tp := rfl
@[simp] theorem State.setReport_host_mem (s : State) (r : DriverReport) : (s.setReport r).host.mem = s.host.mem := rfl
@[simp] theorem State.setReport_host_report (s : State) (r : DriverReport) : (s.setReport r).host.report = r := rfl
@[simp] theorem State.setReport_host_staged (s : State) (r : DriverReport) : (s.setReport r).host.staged = s.host.staged := rfl
@[simp] theorem State.setReport_host_strict (s : State) (r : DriverReport) : (s.setReport r).host.strict = s.host.strict := rfl

@[simp] theorem State.setStaged_inst (s : State) (g : Staged) : (s.setStaged g).inst = s.inst := rfl
@[simp] theorem State.setStaged_key (s : State) (g : Staged) : (s.setStaged g).key = s.key := rfl
@[simp] theorem State.setStaged_iv (s : State) (g : Staged) : (s.setStaged g).iv = s.iv := rfl
@[simp] theorem State.setStaged_ready (s : State) (g : Staged) : (s.setStaged g).ready = s.ready := rfl
@[simp] theorem State.setStaged_variant (s : State) (g : Staged) : (s.setStaged g).variant = s.variant := rfl
@[simp] theorem State.setStaged_err (s : State) (g : Staged) : (s.setStaged g).err = s.err := rfl
@[simp] theorem State.setStaged_host_program (s : State) (g : Staged) : (s.setStaged g).host.program = s.host.program := rfl
@[simp] theorem State.setStaged_host_returned (s : State) (g : Staged) : (s.setStaged g).host.returned = s.host.returned := rfl
@[simp] theorem State.setStaged_host_tb (s : State) (g : Staged) : (s.setStaged g).host.tb = s.host.tb := rfl
@[simp] theorem State.setStaged_host_tp (s : State) (g : Staged) : (s.setStaged g).host.tp = s.host.tp := rfl
@[simp] theorem State.setStaged_host_mem (s : State) (g : Staged) : (s.setStaged g).host.mem = s.host.mem := rfl
@[simp] theorem State.setStaged_host_report (s : State) (g : Staged) : (s.setStaged g).host.report = s.host.report := rfl
@[simp] theorem State.setStaged_host_staged (s : State) (g : Staged) : (s.setStaged g).host.staged = g := rfl
@[simp] theorem State.setStaged_host_strict (s : State) (g : Staged) : (s.setStaged g).host.strict = s.host.strict := rfl

/-! ## What the host keeps of a transaction -/

/-- All that the host does after a transaction (R200, R253, R259). -/
theorem State.hostAfter_eq (s : State) (i : Instr) :
    s.hostAfter i = { s with host := { s.host with
      staged := s.host.staged.after i
      tp := if (setupVariant i).isSome then 128 else s.host.tp
      report := if (setupVariant i).isSome then .idle else s.host.report } } := by
  unfold State.hostAfter
  cases setupVariant i <;> rfl

@[simp] theorem State.hostAfter_inst (s : State) (i : Instr) : (s.hostAfter i).inst = s.inst := by rw [State.hostAfter_eq]
@[simp] theorem State.hostAfter_key (s : State) (i : Instr) : (s.hostAfter i).key = s.key := by rw [State.hostAfter_eq]
@[simp] theorem State.hostAfter_iv (s : State) (i : Instr) : (s.hostAfter i).iv = s.iv := by rw [State.hostAfter_eq]
@[simp] theorem State.hostAfter_ready (s : State) (i : Instr) : (s.hostAfter i).ready = s.ready := by rw [State.hostAfter_eq]
@[simp] theorem State.hostAfter_variant (s : State) (i : Instr) : (s.hostAfter i).variant = s.variant := by rw [State.hostAfter_eq]
@[simp] theorem State.hostAfter_err (s : State) (i : Instr) : (s.hostAfter i).err = s.err := by rw [State.hostAfter_eq]
@[simp] theorem State.hostAfter_host_program (s : State) (i : Instr) : (s.hostAfter i).host.program = s.host.program := by rw [State.hostAfter_eq]
@[simp] theorem State.hostAfter_host_returned (s : State) (i : Instr) : (s.hostAfter i).host.returned = s.host.returned := by rw [State.hostAfter_eq]
@[simp] theorem State.hostAfter_host_tb (s : State) (i : Instr) : (s.hostAfter i).host.tb = s.host.tb := by rw [State.hostAfter_eq]
@[simp] theorem State.hostAfter_host_mem (s : State) (i : Instr) : (s.hostAfter i).host.mem = s.host.mem := by rw [State.hostAfter_eq]
@[simp] theorem State.hostAfter_host_report (s : State) (i : Instr) :
    (s.hostAfter i).host.report = if (setupVariant i).isSome then .idle else s.host.report := by rw [State.hostAfter_eq]
@[simp] theorem State.hostAfter_host_strict (s : State) (i : Instr) : (s.hostAfter i).host.strict = s.host.strict := by rw [State.hostAfter_eq]
@[simp] theorem State.hostAfter_host_staged (s : State) (i : Instr) :
    (s.hostAfter i).host.staged = s.host.staged.after i := by rw [State.hostAfter_eq]
@[simp] theorem State.hostAfter_host_tp (s : State) (i : Instr) :
    (s.hostAfter i).host.tp = if (setupVariant i).isSome then 128 else s.host.tp := by rw [State.hostAfter_eq]

/-! ## Raising an error -/

/-- All that raising an error can do (R226). -/
theorem State.raise_eq (s : State) (e : ErrorKind) :
    s.raise e = { s with err := if s.err = 0 then e.code else s.err } := by
  unfold State.raise
  split <;> rfl

/-- R226: with ERR = 0 the code is recorded. -/
theorem State.raise_first {s : State} (h : s.err = 0) (e : ErrorKind) : s.raise e = { s with err := e.code } :=
  if_pos h

/-- R226: with an error recorded nothing changes. -/
theorem State.raise_recorded {s : State} (h : s.err ≠ 0) (e : ErrorKind) : s.raise e = s := if_neg h

@[simp] theorem State.raise_err (s : State) (e : ErrorKind) :
    (s.raise e).err = if s.err = 0 then e.code else s.err := by rw [State.raise_eq]

@[simp] theorem State.raise_inst (s : State) (e : ErrorKind) : (s.raise e).inst = s.inst := by rw [State.raise_eq]
@[simp] theorem State.raise_key (s : State) (e : ErrorKind) : (s.raise e).key = s.key := by rw [State.raise_eq]
@[simp] theorem State.raise_iv (s : State) (e : ErrorKind) : (s.raise e).iv = s.iv := by rw [State.raise_eq]
@[simp] theorem State.raise_ready (s : State) (e : ErrorKind) : (s.raise e).ready = s.ready := by rw [State.raise_eq]
@[simp] theorem State.raise_variant (s : State) (e : ErrorKind) : (s.raise e).variant = s.variant := by rw [State.raise_eq]
@[simp] theorem State.raise_host (s : State) (e : ErrorKind) : (s.raise e).host = s.host := by rw [State.raise_eq]

/-- The code of an error is never 0. -/
theorem ErrorKind.code_ne_zero (e : ErrorKind) : e.code ≠ 0 := by cases e <;> decide

end Sys2Proof.Machine
end

