-- ==== Sys2Proof/Laws/Registers.lean ====
section
/-! SUPPORT. Reading a register array after writing it, and the lanes of an instance. -/

namespace Sys2Proof.Machine

/-! ## Arrays of words -/

theorem rget_eq_getElem {k : Nat} (v : Vector Word64 k) (i : Fin k) : rget v i = v[i.val] := rfl

@[simp] theorem rget_rset_same {k : Nat} (v : Vector Word64 k) (i : Fin k) (x : Word64) :
    rget (rset v i x) i = x := by
  simp [rget_eq_getElem, rset]

theorem rget_rset_other {k : Nat} (v : Vector Word64 k) {i j : Fin k} (x : Word64) (h : j ≠ i) :
    rget (rset v i x) j = rget v j := by
  have hv : i.val ≠ j.val := fun e => h (Fin.ext e.symm)
  simp [rget_eq_getElem, rset, Vector.getElem_set_ne, hv]

/-- Reading after a write, in one lemma. -/
theorem rget_rset {k : Nat} (v : Vector Word64 k) (i j : Fin k) (x : Word64) :
    rget (rset v i x) j = if j = i then x else rget v j := by
  by_cases h : j = i
  · subst h; simp
  · rw [rget_rset_other v x h, if_neg h]

@[simp] theorem rget_replicate {k : Nat} (x : Word64) (i : Fin k) : rget (Vector.replicate k x) i = x := by
  simp [rget_eq_getElem]

@[simp] theorem rget_ofFn {k : Nat} (f : Fin k → Word64) (i : Fin k) : rget (Vector.ofFn f) i = f i := by
  simp [rget_eq_getElem]

/-- Two arrays that read the same everywhere are equal. -/
theorem rget_ext {k : Nat} {v w : Vector Word64 k} (h : ∀ i, rget v i = rget w i) : v = w :=
  Vector.ext fun i hi => h ⟨i, hi⟩

/-! ## Lanes -/

@[simp] theorem CipherInstance.lane_setLane_same (x : CipherInstance) (n : Fin 16) (v : Word64) :
    (x.setLane n v).lane n = v := rget_rset_same _ _ _

theorem CipherInstance.lane_setLane_other (x : CipherInstance) {n m : Fin 16} (v : Word64) (h : m ≠ n) :
    (x.setLane n v).lane m = x.lane m := rget_rset_other _ _ h

@[simp] theorem CipherInstance.gamma_setGamma_same (x : CipherInstance) (n : Fin 16) (v : Word64) :
    (x.setGamma n v).gamma n = v := rget_rset_same _ _ _

theorem CipherInstance.gamma_setGamma_other (x : CipherInstance) {n m : Fin 16} (v : Word64) (h : m ≠ n) :
    (x.setGamma n v).gamma m = x.gamma m := rget_rset_other _ _ h

@[simp] theorem CipherInstance.lane_setGamma (x : CipherInstance) (n m : Fin 16) (v : Word64) :
    (x.setGamma n v).lane m = x.lane m := rfl

@[simp] theorem CipherInstance.gamma_setLane (x : CipherInstance) (n m : Fin 16) (v : Word64) :
    (x.setLane n v).gamma m = x.gamma m := rfl

@[simp] theorem CipherInstance.lane_setR (x : CipherInstance) (m : Fin 16) (a b : Word64) :
    (x.setR a b).lane m = x.lane m := rfl

@[simp] theorem CipherInstance.gamma_setR (x : CipherInstance) (m : Fin 16) (a b : Word64) :
    (x.setR a b).gamma m = x.gamma m := rfl

@[simp] theorem CipherInstance.lane_setCur (x : CipherInstance) (m : Fin 16) (c : Fin 17) :
    (x.setCur c).lane m = x.lane m := rfl

@[simp] theorem CipherInstance.gamma_setCur (x : CipherInstance) (m : Fin 16) (c : Fin 17) :
    (x.setCur c).gamma m = x.gamma m := rfl

/-- R94: a neighbour lane is never the lane itself, for offsets 1 to 15. -/
theorem laneAt_ne (n : Fin 16) {k : Nat} (h0 : 0 < k) (h16 : k < 16) : laneAt n k ≠ n := by
  intro h
  have hv := congrArg Fin.val h
  have hn := n.isLt
  simp only [laneAt] at hv
  omega

/-- Two instances with the same lanes, delay register, buffer words and cursor are equal. -/
theorem CipherInstance.ext_lanes {x y : CipherInstance} (hS : ∀ n, x.lane n = y.lane n) (h0 : x.R0 = y.R0)
    (h1 : x.R1 = y.R1) (hG : ∀ n, x.gamma n = y.gamma n) (hc : x.cur = y.cur) : x = y := by
  cases x; cases y
  simp only [CipherInstance.mk.injEq]
  exact ⟨rget_ext hS, h0, h1, rget_ext hG, hc⟩

end Sys2Proof.Machine
end

