-- ==== Sys2Proof/Laws/Mixing.lean ====
section
/-! SUPPORT. What one lane update and one pass of the mixing engine do (42_mixing.md R130 to R137). -/

namespace Sys2Proof.Machine

/-- R94: reading a neighbour after S[n] is written gives what it gave before. -/
theorem CipherInstance.laneOff_setLane (x : CipherInstance) (n : Fin 16) (v : Word64) {k : Nat} (h0 : 0 < k)
    (h16 : k < 16) : (x.setLane n v).laneOff n k = x.laneOff n k :=
  x.lane_setLane_other v (laneAt_ne n h0 h16)

@[simp] theorem CipherInstance.laneOff_setGamma (x : CipherInstance) (n m : Fin 16) (v : Word64) (k : Nat) :
    (x.setGamma m v).laneOff n k = x.laneOff n k := rfl

@[simp] theorem CipherInstance.laneOff_setR (x : CipherInstance) (n : Fin 16) (a b : Word64) (k : Nat) :
    (x.setR a b).laneOff n k = x.laneOff n k := rfl

@[simp] theorem CipherInstance.laneOff_setCur (x : CipherInstance) (n : Fin 16) (c : Fin 17) (k : Nat) :
    (x.setCur c).laneOff n k = x.laneOff n k := rfl

/-! ## The field unit -/

@[simp] theorem fieldMulInv_fieldMul (c : Config) (x : Word64) : fieldMulInv c (fieldMul c x) = x :=
  c.fieldMul.symm_apply_apply x

@[simp] theorem fieldMul_fieldMulInv (c : Config) (x : Word64) : fieldMul c (fieldMulInv c x) = x :=
  c.fieldMul.apply_symm_apply x

/-! ## Register aging -/

@[simp] theorem ageR_lane (c : Config) (n m : Fin 16) (x : CipherInstance) : (ageR c n x).lane m = x.lane m := rfl

@[simp] theorem ageR_gamma (c : Config) (n m : Fin 16) (x : CipherInstance) : (ageR c n x).gamma m = x.gamma m := rfl

@[simp] theorem ageR_R0 (c : Config) (n : Fin 16) (x : CipherInstance) :
    (ageR c n x).R0 = add64 x.R1 (x.laneOff n 13) := rfl

@[simp] theorem ageR_R1 (c : Config) (n : Fin 16) (x : CipherInstance) : (ageR c n x).R1 = transform c x.R0 := rfl

@[simp] theorem ageR_G (c : Config) (n : Fin 16) (x : CipherInstance) : (ageR c n x).G = x.G := rfl

@[simp] theorem ageR_cur (c : Config) (n : Fin 16) (x : CipherInstance) : (ageR c n x).cur = x.cur := rfl

/-! ## The initialization lane -/

theorem initLane_lane_same (c : Config) (n : Fin 16) (x : CipherInstance) :
    (initLane c n x).lane n = laneTerms c n x ^^^ add64 x.R0 (x.laneOff n 15) ^^^ x.R1 := by simp [initLane]

theorem initLane_lane_other (c : Config) {n m : Fin 16} (x : CipherInstance) (h : m ≠ n) :
    (initLane c n x).lane m = x.lane m := by simp [initLane, CipherInstance.lane_setLane_other _ _ h]

theorem initLane_R0 (c : Config) (n : Fin 16) (x : CipherInstance) :
    (initLane c n x).R0 = add64 x.R1 (x.laneOff n 13) := by
  simp [initLane, CipherInstance.laneOff_setLane]

@[simp] theorem initLane_R1 (c : Config) (n : Fin 16) (x : CipherInstance) :
    (initLane c n x).R1 = transform c x.R0 := rfl

@[simp] theorem initLane_G (c : Config) (n : Fin 16) (x : CipherInstance) : (initLane c n x).G = x.G := rfl

@[simp] theorem initLane_cur (c : Config) (n : Fin 16) (x : CipherInstance) : (initLane c n x).cur = x.cur := rfl

/-! ## The generation lane -/

theorem genLaneState_lane_same (c : Config) (n : Fin 16) (x : CipherInstance) :
    (genLaneState c n x).lane n = laneTerms c n x := by simp [genLaneState]

theorem genLaneState_lane_other (c : Config) {n m : Fin 16} (x : CipherInstance) (h : m ≠ n) :
    (genLaneState c n x).lane m = x.lane m := by simp [genLaneState, CipherInstance.lane_setLane_other _ _ h]

theorem genLaneState_R0 (c : Config) (n : Fin 16) (x : CipherInstance) :
    (genLaneState c n x).R0 = add64 x.R1 (x.laneOff n 13) := by
  simp [genLaneState, CipherInstance.laneOff_setLane]

@[simp] theorem genLaneState_R1 (c : Config) (n : Fin 16) (x : CipherInstance) :
    (genLaneState c n x).R1 = transform c x.R0 := rfl

@[simp] theorem genLane_lane (c : Config) (n m : Fin 16) (x : CipherInstance) :
    (genLane c n x).lane m = (genLaneState c n x).lane m := rfl

@[simp] theorem genLane_R0 (c : Config) (n : Fin 16) (x : CipherInstance) :
    (genLane c n x).R0 = (genLaneState c n x).R0 := rfl

@[simp] theorem genLane_R1 (c : Config) (n : Fin 16) (x : CipherInstance) :
    (genLane c n x).R1 = transform c x.R0 := rfl

theorem genLane_gamma_same (c : Config) (n : Fin 16) (x : CipherInstance) :
    (genLane c n x).gamma n = outputWord n (genLaneState c n x) := by simp [genLane]

theorem genLane_gamma_other (c : Config) {n m : Fin 16} (x : CipherInstance) (h : m ≠ n) :
    (genLane c n x).gamma m = x.gamma m := by
  simp [genLane, CipherInstance.gamma_setGamma_other _ _ h, genLaneState]

@[simp] theorem genLane_cur (c : Config) (n : Fin 16) (x : CipherInstance) : (genLane c n x).cur = x.cur := rfl

/-! ## Passes -/

/-- R139: the lanes of a pass, in order. -/
theorem laneOrder_eq : laneOrder = [0, 1, 2, 3, 4, 5, 6, 7, 8, 9, 10, 11, 12, 13, 14, 15] := by
  unfold laneOrder
  decide

theorem mem_laneOrder (n : Fin 16) : n ∈ laneOrder := by
  unfold laneOrder
  exact List.mem_finRange n

/-- A property that every lane update of a fold keeps holds after the fold. -/
theorem foldl_lanes {P : CipherInstance → Prop} (f : CipherInstance → Fin 16 → CipherInstance)
    (h : ∀ y n, P y → P (f y n)) (ns : List (Fin 16)) {x : CipherInstance} (hx : P x) : P (ns.foldl f x) := by
  induction ns generalizing x with
  | nil => exact hx
  | cons n ns ih => exact ih (h x n hx)

@[simp] theorem initPass_G (c : Config) (x : CipherInstance) : (initPass c x).G = x.G :=
  foldl_lanes (P := fun y => y.G = x.G) _ (fun y n h => by simpa using h) _ rfl

@[simp] theorem initPass_cur (c : Config) (x : CipherInstance) : (initPass c x).cur = x.cur :=
  foldl_lanes (P := fun y => y.cur = x.cur) _ (fun y n h => by simpa using h) _ rfl

@[simp] theorem genPass_cur (c : Config) (x : CipherInstance) : (genPass c x).cur = 0 := rfl

@[simp] theorem CipherInstance.setCur_setCur (x : CipherInstance) (c d : Fin 17) :
    (x.setCur c).setCur d = x.setCur d := rfl

/-- A generation pass leaves cur at 0, so writing 0 to it again changes nothing. -/
@[simp] theorem genPass_setCur_zero (c : Config) (x : CipherInstance) : (genPass c x).setCur 0 = genPass c x := by
  unfold genPass
  exact CipherInstance.setCur_setCur _ 0 0

/-- R119 with the cursor's write absorbed. -/
theorem construct_eq (c : Config) (v : Variant) (key : Vector Word64 8) (iv : Vector Word64 4) (x : CipherInstance) :
    construct c v key iv x = genPass c (initPass c (initPass c (load c v key iv x))) := genPass_setCur_zero c _

@[simp] theorem construct_cur (c : Config) (v : Variant) (key : Vector Word64 8) (iv : Vector Word64 4)
    (x : CipherInstance) : (construct c v key iv x).cur = 0 := rfl

end Sys2Proof.Machine
end

