-- ==== Sys2Proof/Laws/Commands.lean ====
section
/-! SUPPORT. Everything the shared operations behind the transactions can do: one inversion lemma each, and one for
exec, so that a later proof about every instruction splits these cases and unfolds nothing. -/

namespace Sys2Proof.Machine

/-- R120, R121: the lengths that select a variant. -/
theorem variantOfLengths_eq_some {kl il : BitVec 8} {v : Variant} :
    variantOfLengths kl il = some v ↔ il = 32 ∧ (kl = 32 ∧ v = .v256 ∨ kl = 64 ∧ v = .v512) := by
  unfold variantOfLengths
  split
  · next h =>
    have h' : il ≠ 32 := h
    constructor
    · intro e; cases e
    · rintro ⟨e, _⟩; exact absurd e h'
  · next h =>
    have h' : il = 32 := by simpa using h
    split
    · next hk => subst hk; simp [h', eq_comm]
    · next hk => split <;> simp_all [eq_comm]

/-- All that SETUP can do (R181). -/
theorem setupUnder_cases (c : Config) (kl il : BitVec 8) (s : State) :
    (variantOfLengths kl il = none ∧ setupUnder c kl il s = (s.raise .invalidLength).clearStaging) ∨
      ∃ v, variantOfLengths kl il = some v ∧
        setupUnder c kl il s = ((s.setInst (construct c v s.key s.iv s.inst)).setReady true v).clearStaging := by
  unfold setupUnder
  cases h : variantOfLengths kl il with
  | none => exact .inl ⟨rfl, rfl⟩
  | some v => exact .inr ⟨v, rfl, rfl⟩

/-- NEXT_WORD below the end of the buffer: no refill (R150). -/
theorem takeWord_within (c : Config) {x : CipherInstance} (h : x.cur.val < 15) :
    takeWord c x = some (x.gamma ⟨x.cur.val, by omega⟩, x.setCur ⟨x.cur.val + 1, by omega⟩) := by
  have hne : (⟨x.cur.val + 1, by omega⟩ : Fin 17) ≠ 16 := by
    intro e; have := congrArg Fin.val e; simp at this; omega
  simp [takeWord, show x.cur.val < 16 by omega, hne]

/-- NEXT_WORD at the end of the buffer: the old G[15], then the refill (R150, R151). -/
theorem takeWord_refill (c : Config) {x : CipherInstance} (h : x.cur = 15) :
    takeWord c x = some (x.gamma 15, genPass c (x.setCur 16)) := by
  have hv : x.cur.val = 15 := by rw [h]; rfl
  have hw : x.cur.val < 16 := by omega
  rw [takeWord, dif_pos hw]
  have e1 : (⟨x.cur.val, hw⟩ : Fin 16) = 15 := Fin.ext hv
  have e2 : (⟨x.cur.val + 1, by omega⟩ : Fin 17) = 16 := Fin.ext (by simp [hv])
  simp only [e1, e2, CipherInstance.setCur_cur, if_true]

/-- All that taking a word can do (R150, R151). -/
theorem takeWord_cases (c : Config) (x : CipherInstance) :
    (x.cur = 16 ∧ takeWord c x = none) ∨
      (∃ h : x.cur.val < 15, takeWord c x = some (x.gamma ⟨x.cur.val, by omega⟩, x.setCur ⟨x.cur.val + 1, by omega⟩)) ∨
      (x.cur = 15 ∧ takeWord c x = some (x.gamma 15, genPass c (x.setCur 16))) := by
  by_cases h : x.cur.val < 15
  · exact .inr (.inl ⟨h, takeWord_within c h⟩)
  · by_cases h' : x.cur.val = 15
    · have e : x.cur = 15 := Fin.ext h'
      exact .inr (.inr ⟨e, takeWord_refill c e⟩)
    · have e : x.cur = 16 := Fin.ext (show x.cur.val = 16 by omega)
      exact .inl ⟨e, by simp [takeWord, show ¬ x.cur.val < 16 by omega]⟩

/-- All that NEXT_WORD can do (R150). -/
theorem nextWord_cases (c : Config) (s : State) :
    (s.ready = false ∧ nextWord c s = .next ((s.raise .notReady).returns 0)) ∨
      (s.ready = true ∧ s.inst.cur = 16 ∧ nextWord c s = .fault .cursorSpent) ∨
      (s.ready = true ∧ ∃ w y, takeWord c s.inst = some (w, y) ∧ nextWord c s = .next ((s.setInst y).returns w)) := by
  cases hr : s.ready with
  | false => exact .inl ⟨rfl, by simp [nextWord, hr]⟩
  | true =>
    cases ht : takeWord c s.inst with
    | none =>
      refine .inr (.inl ⟨rfl, ?_, by simp [nextWord, hr, ht]⟩)
      rcases takeWord_cases c s.inst with ⟨h, _⟩ | ⟨_, h⟩ | ⟨_, h⟩
      · exact h
      · rw [ht] at h; cases h
      · rw [ht] at h; cases h
    | some p => exact .inr (.inr ⟨rfl, p.1, p.2, rfl, by simp [nextWord, hr, ht]⟩)

/-- All that EXECUTE_CMD can do, beside the command the decoder reads (R179). -/
theorem executeCmd_cases (v : Word64) (s : State) :
    (decodeCmd v = .reserved v ∧ executeCmd v s = .next (s.raise .illegalCommand)) ∨
      (decodeCmd v = .nop ∧ executeCmd v s = .next s) ∨
      (decodeCmd v = .setup (cmdKlen v) (cmdIvlen v) ∧
        executeCmd v s = .next (setupUnder Config.active (cmdKlen v) (cmdIvlen v) s)) ∨
      (decodeCmd v = .zeroize ∧ executeCmd v s = execZeroize s) ∨
      (decodeCmd v = .clrerr ∧ executeCmd v s = .next s.clearErr) := by
  unfold decodeCmd executeCmd
  split_ifs
  · exact .inl ⟨rfl, rfl⟩
  · exact .inl ⟨rfl, rfl⟩
  · exact .inr (.inl ⟨rfl, rfl⟩)
  · exact .inr (.inr (.inl ⟨rfl, rfl⟩))
  · exact .inl ⟨rfl, rfl⟩
  · exact .inr (.inr (.inr (.inl ⟨rfl, rfl⟩)))
  · exact .inl ⟨rfl, rfl⟩
  · exact .inr (.inr (.inr (.inr ⟨rfl, rfl⟩)))
  · exact .inl ⟨rfl, rfl⟩

/-- All that an instruction can do when it answers a next state. -/
theorem exec_next_cases {i : Instr} {s t : State} (h : exec i s = .next t) :
    t = s ∨ (∃ k v, i = .wrKey k v ∧ t = s.setKey k v) ∨ (∃ k v, i = .wrIv k v ∧ t = s.setIv k v) ∨
      (i ≠ .rdKsout ∧ ∃ v, t = s.returns v) ∨
      (i = .rdKsout ∧ s.ready = false ∧ t = (s.raise .notReady).returns 0) ∨
      (i = .rdKsout ∧ s.ready = true ∧ ∃ w y, takeWord Config.active s.inst = some (w, y) ∧
        t = (s.setInst y).returns w) ∨
      (∃ a b, effectOf i = .setup a b ∧ t = setupUnder Config.active a b s) ∨
      (effectOf i = .zeroize ∧ t = ((s.setInst .zero).setReady false .v256).clearStaging) ∨
      (effectOf i = .clrerr ∧ t = s.clearErr) ∨
      (∃ w, effectOf i = .reserved w ∧ t = s.raise .illegalCommand) := by
  cases i with
  | wrKey k v => cases h; exact .inr (.inl ⟨k, v, rfl, rfl⟩)
  | wrIv k v => cases h; exact .inr (.inr (.inl ⟨k, v, rfl, rfl⟩))
  | wrStatus v => cases h; exact .inl rfl
  | wrKsout v => cases h; exact .inl rfl
  | wrRsv15 v => cases h; exact .inl rfl
  | rdKey k => cases h; exact .inr (.inr (.inr (.inl ⟨nofun, 0, rfl⟩)))
  | rdIv k => cases h; exact .inr (.inr (.inr (.inl ⟨nofun, 0, rfl⟩)))
  | rdCmd => cases h; exact .inr (.inr (.inr (.inl ⟨nofun, 0, rfl⟩)))
  | rdStatus => cases h; exact .inr (.inr (.inr (.inl ⟨nofun, s.status, rfl⟩)))
  | rdRsv15 => cases h; exact .inr (.inr (.inr (.inl ⟨nofun, 0, rfl⟩)))
  | rdKsout =>
    rw [exec, execRdKsout] at h
    rcases nextWord_cases Config.active s with ⟨hr, e⟩ | ⟨_, _, e⟩ | ⟨hr, w, y, hw, e⟩ <;> rw [e] at h <;> cases h
    · exact .inr (.inr (.inr (.inr (.inl ⟨rfl, hr, rfl⟩))))
    · exact .inr (.inr (.inr (.inr (.inr (.inl ⟨rfl, hr, w, y, hw, rfl⟩)))))
  | nop => cases h; exact .inl rfl
  | setup a b => cases h; exact .inr (.inr (.inr (.inr (.inr (.inr (.inl ⟨a, b, rfl, rfl⟩))))))
  | zeroize => cases h; exact .inr (.inr (.inr (.inr (.inr (.inr (.inr (.inl ⟨rfl, rfl⟩)))))))
  | clrerr => cases h; exact .inr (.inr (.inr (.inr (.inr (.inr (.inr (.inr (.inl ⟨rfl, rfl⟩))))))))
  | reserved w => cases h; exact .inr (.inr (.inr (.inr (.inr (.inr (.inr (.inr (.inr ⟨w, rfl, rfl⟩))))))))
  | wrCmd v =>
    rw [exec, execWrCmd] at h
    rcases executeCmd_cases v s with ⟨d, e⟩ | ⟨d, e⟩ | ⟨d, e⟩ | ⟨d, e⟩ | ⟨d, e⟩ <;> rw [e] at h <;> cases h
    · exact .inr (.inr (.inr (.inr (.inr (.inr (.inr (.inr (.inr ⟨v, d, rfl⟩))))))))
    · exact .inl rfl
    · exact .inr (.inr (.inr (.inr (.inr (.inr (.inl ⟨_, _, d, rfl⟩))))))
    · exact .inr (.inr (.inr (.inr (.inr (.inr (.inr (.inl ⟨d, rfl⟩)))))))
    · exact .inr (.inr (.inr (.inr (.inr (.inr (.inr (.inr (.inl ⟨d, rfl⟩))))))))

end Sys2Proof.Machine
end

