-- ==== Sys2Proof/Laws/Decode.lean ====
section
/-! SUPPORT. The fields of an assembled command word and of an assembled header (30_encoding.md R71, R73). -/

namespace Sys2Proof

@[simp] theorem cmdOpc_mkCmd (o k l : BitVec 8) : cmdOpc (mkCmd o k l) = o := by
  ext i hi
  simp [cmdOpc, mkCmd, show i < 64 by omega, show i < 8 by omega, show i < 16 by omega]

@[simp] theorem cmdKlen_mkCmd (o k l : BitVec 8) : cmdKlen (mkCmd o k l) = k := by
  ext i hi
  simp [cmdKlen, mkCmd, show 8 + i < 64 by omega, show 8 + i < 16 by omega, BitVec.getLsbD_eq_getElem hi]

@[simp] theorem cmdIvlen_mkCmd (o k l : BitVec 8) : cmdIvlen (mkCmd o k l) = l := by
  ext i hi
  simp [cmdIvlen, mkCmd, show 16 + i < 64 by omega, BitVec.getLsbD_of_ge o (16 + i) (by omega),
    BitVec.getLsbD_of_ge k (16 + i - 8) (by omega), BitVec.getLsbD_eq_getElem hi]

@[simp] theorem cmdRsv_mkCmd (o k l : BitVec 8) : cmdRsv (mkCmd o k l) = 0 := by
  ext i hi
  simp [cmdRsv, mkCmd, BitVec.getLsbD_of_ge o (24 + i) (by omega), BitVec.getLsbD_of_ge k (24 + i - 8) (by omega),
    BitVec.getLsbD_of_ge l (24 + i - 16) (by omega)]

@[simp] theorem headerIsWrite_mkHeader (d : Bool) (idx : BitVec 4) : headerIsWrite (mkHeader d idx) = d := by
  cases d <;> revert idx <;> decide

@[simp] theorem headerIdx_mkHeader (d : Bool) (idx : BitVec 4) : headerIdx (mkHeader d idx) = idx := by
  cases d <;> revert idx <;> decide

/-- A bit of a byte put in its place (R99). -/
theorem getLsbD_bytePlace (b : Byte) {j : Nat} (hj : j < 8) (i : Nat) :
    (bytePlace b j).getLsbD i = (decide (8 * j ≤ i ∧ i < 8 * j + 8) && b.getLsbD (i - 8 * j)) := by
  simp only [bytePlace, BitVec.getLsbD_shiftLeft, BitVec.getLsbD_setWidth]
  by_cases h1 : 8 * j ≤ i
  · by_cases h2 : i < 8 * j + 8
    · simp [h1, h2, show i < 64 by omega, show i - 8 * j < 64 by omega]
    · simp [h2, BitVec.getLsbD_of_ge b (i - 8 * j) (by omega)]
  · simp [h1, show i < 8 * j by omega]

/-- A byte of the little-endian encoding (R100). -/
theorem bytesLe_get (w : Word64) (k : Fin 8) : (bytesLe w).get k = w.extractLsb' (8 * k.val) 8 := by
  simp [bytesLe, Vector.get_eq_getElem]

end Sys2Proof
end

