-- ==== Sys2Proof/Laws/HostRecord.lean ====
section
/-! SUPPORT. Everything the host's record of a transaction can say and do. -/

namespace Sys2Proof.Machine

/-- A successful SETUP is a SETUP command with valid lengths (R181). -/
theorem setupVariant_eq_some {i : Instr} {v : Variant} :
    setupVariant i = some v ↔ ∃ a b, effectOf i = .setup a b ∧ variantOfLengths a b = some v := by
  unfold setupVariant
  cases effectOf i <;> simp

/-- All KW + 4 words are written (R259). -/
theorem Staged.complete_iff {g : Staged} {v : Variant} :
    g.complete v = true ↔
      (∀ i : Fin 8, (v = .v256 → i.val < 4) → g.key.get i = true) ∧ ∀ j : Fin 4, g.iv.get j = true := by
  have all : ∀ {n : Nat} (x : Vector Bool n), x.toList.all id = true ↔ ∀ i : Fin n, x.get i = true := fun x => by
    simp [Vector.get_eq_getElem, Fin.forall_iff]
  cases v with
  | v256 =>
    simp only [Staged.complete, Bool.and_eq_true, all, true_implies]
    refine and_congr_left fun _ => ⟨fun h i hi => ?_, fun h => ?_⟩
    · have : i = 0 ∨ i = 1 ∨ i = 2 ∨ i = 3 := by omega
      rcases this with rfl | rfl | rfl | rfl
      · exact h.1.1.1
      · exact h.1.1.2
      · exact h.1.2
      · exact h.2
    · exact ⟨⟨⟨h 0 (by decide), h 1 (by decide)⟩, h 2 (by decide)⟩, h 3 (by decide)⟩
  | v512 => simp only [Staged.complete, Bool.and_eq_true, all, reduceCtorEq, false_implies, true_implies]

/-- A successful SETUP with a word not written is issued too early (R259). -/
theorem Staged.tooEarly_iff {g : Staged} {i : Instr} :
    g.tooEarly i = true ↔ ∃ v, setupVariant i = some v ∧ g.complete v = false := by
  unfold Staged.tooEarly
  cases setupVariant i <;> simp

/-- What a command word can decode to (R75, R76). -/
theorem decodeCmd_cases (v : Word64) :
    decodeCmd v = .reserved v ∨ decodeCmd v = .nop ∨ decodeCmd v = .setup (cmdKlen v) (cmdIvlen v) ∨
      decodeCmd v = .zeroize ∨ decodeCmd v = .clrerr := by
  unfold decodeCmd
  split_ifs <;> simp

/-- All that an instruction can do to the record (R259). -/
theorem Staged.after_cases (g : Staged) (i : Instr) :
    (∃ k v, i = .wrKey k v ∧ g.after i = { g with key := g.key.set k.val true k.isLt }) ∨
      (∃ k v, i = .wrIv k v ∧ g.after i = { g with iv := g.iv.set k.val true k.isLt }) ∨
      (((∃ a b, effectOf i = .setup a b) ∨ effectOf i = .zeroize) ∧ g.after i = .empty) ∨
      ((∀ k v, i ≠ .wrKey k v) ∧ (∀ k v, i ≠ .wrIv k v) ∧ (∀ a b, effectOf i ≠ .setup a b) ∧
        effectOf i ≠ .zeroize ∧ g.after i = g) := by
  have cmd : ∀ v, effectOf (.wrCmd v) = decodeCmd v := fun _ => rfl
  cases i with
  | wrKey k v => exact .inl ⟨k, v, rfl, rfl⟩
  | wrIv k v => exact .inr (.inl ⟨k, v, rfl, rfl⟩)
  | wrCmd v =>
    have ha : g.after (.wrCmd v) = match decodeCmd v with
        | .setup _ _ | .zeroize => .empty
        | _ => g := by
      unfold Staged.after
      rw [cmd]
      rcases decodeCmd_cases v with d | d | d | d | d <;> rw [d]
    rcases decodeCmd_cases v with d | d | d | d | d <;> rw [d] at ha <;> rw [cmd, d]
    · exact .inr (.inr (.inr ⟨nofun, nofun, nofun, nofun, ha⟩))
    · exact .inr (.inr (.inr ⟨nofun, nofun, nofun, nofun, ha⟩))
    · exact .inr (.inr (.inl ⟨.inl ⟨_, _, rfl⟩, ha⟩))
    · exact .inr (.inr (.inl ⟨.inr rfl, ha⟩))
    · exact .inr (.inr (.inr ⟨nofun, nofun, nofun, nofun, ha⟩))
  | setup a b => exact .inr (.inr (.inl ⟨.inl ⟨a, b, rfl⟩, rfl⟩))
  | zeroize => exact .inr (.inr (.inl ⟨.inr rfl, rfl⟩))
  | _ => exact .inr (.inr (.inr ⟨nofun, nofun, nofun, nofun, rfl⟩))

/-- What a host fault is (R259, 93 U9). -/
theorem State.hostFault_eq_true {s : State} {i : Instr} :
    s.hostFault i = true ↔ s.host.strict = true ∧ ∃ v, setupVariant i = some v ∧ s.host.staged.complete v = false := by
  simp [State.hostFault, Staged.tooEarly_iff]

/-- SETUP, whatever its outcome, and ZEROIZE clear the staging registers (R24, R25, R258). -/
theorem exec_clears_staging {i : Instr} {s t : State} (h : exec i s = .next t)
    (he : (∃ a b, effectOf i = .setup a b) ∨ effectOf i = .zeroize) :
    t.key = Vector.replicate 8 0 ∧ t.iv = Vector.replicate 4 0 := by
  have setup : ∀ a b, (setupUnder Config.active a b s).key = Vector.replicate 8 0 ∧
      (setupUnder Config.active a b s).iv = Vector.replicate 4 0 := fun a b => by
    rcases setupUnder_cases Config.active a b s with ⟨_, e⟩ | ⟨_, _, e⟩ <;> rw [e] <;> simp
  cases i with
  | setup a b => cases h; exact setup a b
  | zeroize => cases h; exact ⟨rfl, rfl⟩
  | wrCmd v =>
    change (∃ a b, decodeCmd v = .setup a b) ∨ decodeCmd v = .zeroize at he
    rw [exec, execWrCmd] at h
    rcases executeCmd_cases v s with ⟨d, e⟩ | ⟨d, e⟩ | ⟨d, e⟩ | ⟨d, e⟩ | ⟨d, e⟩ <;> rw [d] at he <;> rw [e] at h
    · rcases he with ⟨_, _, he⟩ | he <;> cases he
    · rcases he with ⟨_, _, he⟩ | he <;> cases he
    · cases h; exact setup _ _
    · cases h; exact ⟨rfl, rfl⟩
    · rcases he with ⟨_, _, he⟩ | he <;> cases he
  | _ => rcases he with ⟨_, _, he⟩ | he <;> cases he

end Sys2Proof.Machine
end

