-- ==== Sys2Proof/Laws/Memory.lean ====
section
/-! SUPPORT. The host's data buffer keeps its canonical form, and reading after a write. -/

namespace Sys2Proof.Machine

/-- Every address of a list is above `a`. -/
theorem Memory.readByte_below {m : Memory} {x : Nat} (h : ∀ c ∈ m, x < c.1) : m.readByte x = Memory.unlisted := by
  induction m with
  | nil => rfl
  | cons c m ih =>
    have hc : x < c.1 := h c (by simp)
    rw [Memory.readByte, if_neg (by omega)]
    exact ih fun d hd => h d (by simp [hd])

theorem Memory.wf_cons {a : Nat} {b : Byte} {m : Memory} :
    Memory.wf ((a, b) :: m) = true ↔ b ≠ Memory.unlisted ∧ (∀ c ∈ m, a < c.1) ∧ m.wf = true := by
  simp [Memory.wf, and_assoc]

theorem Memory.wf_nil : Memory.wf [] = true := rfl

/-- Putting a cell below all others keeps the form. -/
theorem Memory.putCell_wf {a : Nat} {b : Byte} {m : Memory} (hm : m.wf = true) (h : ∀ c ∈ m, a < c.1) :
    (Memory.putCell a b m).wf = true := by
  unfold Memory.putCell
  split
  · exact hm
  · next hb => exact Memory.wf_cons.2 ⟨hb, h, hm⟩

theorem Memory.mem_putCell {a : Nat} {b : Byte} {m : Memory} {c : Host.Cell} (h : c ∈ Memory.putCell a b m) :
    c = (a, b) ∨ c ∈ m := by
  unfold Memory.putCell at h
  split at h
  · exact .inr h
  · simpa using h

/-- A cell of the memory after a write is the written one or an old one. -/
theorem Memory.mem_writeByte {m : Memory} {x : Nat} {b : Byte} {c : Host.Cell} (h : c ∈ m.writeByte x b) :
    c = (x, b) ∨ c ∈ m := by
  induction m with
  | nil => exact (Memory.mem_putCell h).imp id fun h => by simp at h
  | cons d m ih =>
    rw [Memory.writeByte] at h
    split at h
    · exact Memory.mem_putCell h
    · split at h
      · exact (Memory.mem_putCell h).imp id fun h => by simp [h]
      · rcases List.mem_cons.1 h with h | h
        · exact .inr (by simp [h])
        · exact (ih h).imp id fun h => by simp [h]

/-- A write keeps the canonical form. -/
theorem Memory.writeByte_wf {m : Memory} (hm : m.wf = true) (x : Nat) (b : Byte) : (m.writeByte x b).wf = true := by
  induction m with
  | nil => exact Memory.putCell_wf rfl (by simp)
  | cons d m ih =>
    obtain ⟨a, c⟩ := d
    obtain ⟨hc, hlt, hwf⟩ := Memory.wf_cons.1 hm
    rw [Memory.writeByte]
    split
    · next hx =>
      refine Memory.putCell_wf hm fun e he => ?_
      rcases List.mem_cons.1 he with rfl | he
      · exact hx
      · exact lt_trans hx (hlt e he)
    · split
      · next hx hxa => subst hxa; exact Memory.putCell_wf hwf hlt
      · next hx hxa =>
        refine Memory.wf_cons.2 ⟨hc, fun e he => ?_, ih hwf⟩
        rcases Memory.mem_writeByte he with rfl | he
        · show a < x; omega
        · exact hlt e he

theorem Memory.readByte_putCell {a : Nat} {b : Byte} {m : Memory} (h : ∀ c ∈ m, a < c.1) (y : Nat) :
    (Memory.putCell a b m).readByte y = if y = a then b else m.readByte y := by
  unfold Memory.putCell
  split
  · next hb =>
    split
    · next hy => rw [hy, Memory.readByte_below h, hb]
    · rfl
  · rfl

/-- Reading a byte after a write: the byte written at its address, and every other address as before. -/
theorem Memory.readByte_writeByte {m : Memory} (hm : m.wf = true) (x : Nat) (b : Byte) (y : Nat) :
    (m.writeByte x b).readByte y = if y = x then b else m.readByte y := by
  induction m with
  | nil => exact Memory.readByte_putCell (by simp) y
  | cons d m ih =>
    obtain ⟨a, c⟩ := d
    obtain ⟨_, hlt, hwf⟩ := Memory.wf_cons.1 hm
    rw [Memory.writeByte]
    split
    · next hx =>
      refine Memory.readByte_putCell (fun e he => ?_) y
      rcases List.mem_cons.1 he with rfl | he
      · exact hx
      · exact lt_trans hx (hlt e he)
    · split
      · next hx hxa =>
        subst hxa
        rw [Memory.readByte_putCell hlt]
        by_cases hy : y = x <;> simp [Memory.readByte, hy]
      · next hx hxa =>
        rw [Memory.readByte, Memory.readByte, ih hwf]
        by_cases hy : y = a
        · have : y ≠ x := by omega
          simp [hy, Ne.symm hxa]
        · simp [hy]

end Sys2Proof.Machine
end

