-- ==== Sys2Proof/Laws/PerInstr.lean ====
section
/-! SUPPORT. Statements made of every instruction, one lemma per constructor. -/

namespace Sys2Proof.Laws.EncodedLength

/-- R70, R78: both formats have a fixed length, here nine bytes for a transaction and eight for a command word. -/
def Statement (i : Instr) : Prop :=
  (encode i).length = match i.format with
    | .ht => 9
    | .cmd => 8

theorem wrKey (k : Fin 8) (v : Word64) : Statement (.wrKey k v) := rfl
theorem wrIv (k : Fin 4) (v : Word64) : Statement (.wrIv k v) := rfl
theorem wrCmd (v : Word64) : Statement (.wrCmd v) := rfl
theorem wrStatus (v : Word64) : Statement (.wrStatus v) := rfl
theorem wrKsout (v : Word64) : Statement (.wrKsout v) := rfl
theorem wrRsv15 (v : Word64) : Statement (.wrRsv15 v) := rfl
theorem rdKey (k : Fin 8) : Statement (.rdKey k) := rfl
theorem rdIv (k : Fin 4) : Statement (.rdIv k) := rfl
theorem rdCmd : Statement .rdCmd := rfl
theorem rdStatus : Statement .rdStatus := rfl
theorem rdKsout : Statement .rdKsout := rfl
theorem rdRsv15 : Statement .rdRsv15 := rfl
theorem nop : Statement .nop := rfl
theorem setup (a b : BitVec 8) : Statement (.setup a b) := rfl
theorem zeroize : Statement .zeroize := rfl
theorem clrerr : Statement .clrerr := rfl
theorem reserved (w : Word64) : Statement (.reserved w) := rfl

end Sys2Proof.Laws.EncodedLength
end

