-- ==== Sys2Proof/Laws/Step.lean ====
section
/-! SUPPORT. Fetching, and everything one step and one action of the driver can do. -/

namespace Sys2Proof.Machine

/-- No step. -/
@[simp] theorem core_run_zero (s : State) : Sys2Proof.core.run 0 s = .next s := rfl

/-- The first of some steps. -/
theorem core_run_succ {k : Nat} {s t : State} (h : step s = .next t) :
    Sys2Proof.core.run (k + 1) s = Sys2Proof.core.run k t := by
  simp only [Host.Core.run, show Sys2Proof.core.step s = .next t from h]

/-- An action of the driver runs on the state with that action taken from the program. -/
theorem step_driver {s : State} {op : DriverOp} {rest : List HostEvent} (h : s.host.program = .driver op :: rest) :
    step s = driverStep op (s.setProgram rest) := by
  simp only [step, State.fetch, h]

@[simp] theorem fetch_nil {s : State} (h : s.host.program = []) : s.fetch = none := by simp [State.fetch, h]

@[simp] theorem fetch_cons {s : State} {e : HostEvent} {rest : List HostEvent} (h : s.host.program = e :: rest) :
    s.fetch = some (e, s.setProgram rest) := by simp [State.fetch, h]

/-- All that a transaction can do when it answers a next state. -/
theorem transact_next {i : Instr} {s t : State} (h : transact i s = .next t) :
    s.hostFault i = false ∧ ∃ u, exec i s = .next u ∧ t = u.hostAfter i := by
  unfold transact at h
  split at h
  · cases h
  · next hf =>
    refine ⟨by simpa using hf, ?_⟩
    cases he : exec i s <;> rw [he, hostObserve] at h <;> cases h
    exact ⟨_, rfl, rfl⟩

/-- A transaction that is no host fault and completes. -/
theorem transact_of_exec {i : Instr} {s u : State} (hf : s.hostFault i = false) (h : exec i s = .next u) :
    transact i s = .next (u.hostAfter i) := by
  simp [transact, hf, h, hostObserve]

/-- What a step is, by the next event of the host's program. -/
theorem step_cases (s : State) :
    (s.host.program = [] ∧ step s = .next s) ∨
      (∃ t rest, s.host.program = .transaction t :: rest ∧
        step s = transact (decodeTransaction t) (s.setProgram rest)) ∨
      (∃ rest, s.host.program = .reset :: rest ∧ step s = .next (s.setProgram rest).resetBlock) ∨
      (∃ op rest, s.host.program = .driver op :: rest ∧ step s = driverStep op (s.setProgram rest)) := by
  cases hp : s.host.program with
  | nil => exact .inl ⟨rfl, by simp [step, fetch_nil hp, stepIdle]⟩
  | cons e rest =>
    cases e with
    | transaction t => exact .inr (.inl ⟨t, rest, rfl, by simp [step, fetch_cons hp]⟩)
    | reset => exact .inr (.inr (.inl ⟨rest, rfl, by simp [step, fetch_cons hp, stepReset]⟩))
    | driver op => exact .inr (.inr (.inr ⟨op, rest, rfl, by simp [step, fetch_cons hp]⟩))

/-! ## The driver -/

/-- A driver that may not consume keystream does nothing (R204). -/
theorem driverApply_unconfirmed {buf n : Nat} {s : State} (h : s.host.report.mayConsume = false) :
    driverApply buf n s = .next s := by simp [driverApply, h]

theorem driverApply_zero (buf : Nat) (s : State) : driverApply buf 0 s = .next s := by
  simp [driverApply, applyBytes]

theorem driverApply_byte {buf n : Nat} {s : State} (hm : s.host.report.mayConsume = true) (h : s.host.tp.val < 128) :
    driverApply buf (n + 1) s =
      .next ((xorByte buf ⟨s.host.tp.val, h⟩ s).issueFirst [.driver (.apply (buf + 1) n)]) := by
  simp [driverApply, applyBytes, hm, h]

theorem driverApply_fetch {buf n : Nat} {s : State} (hm : s.host.report.mayConsume = true) (h : s.host.tp = 128) :
    driverApply buf (n + 1) s =
      .next (s.issueFirst (nextBlockEvents ++ [.driver .rewind, .driver (.apply buf (n + 1))])) := by
  have : ¬ s.host.tp.val < 128 := by rw [h]; decide
  simp [driverApply, applyBytes, hm, this]

theorem driverTakeWord_cons {j : Fin 16} {s : State} {w : Word64} {ws : List Word64} (h : s.host.returned = w :: ws) :
    driverTakeWord j s = .next (s.setTb (putWord s.host.tb j w)) := by
  simp [driverTakeWord, h]

/-- A byte of the tail buffer after a word is put into it (R161). -/
theorem putWord_get (tb : Vector Byte 128) (j : Fin 16) (w : Word64) (i : Fin 128) :
    (putWord tb j w).get i =
      if i.val / 8 = j.val then (serialize w).get ⟨i.val % 8, Nat.mod_lt _ (by decide)⟩ else tb.get i := by
  simp [putWord, Vector.get_eq_getElem]

/-- All that one action of the driver can do when it answers a next state. -/
theorem driverStep_next_cases {op : DriverOp} {s t : State} (h : driverStep op s = .next t) :
    (t = s ∧ ∃ buf n, op = .apply buf n) ∨
      (∃ j w, op = .takeWord j ∧ t = s.setTb (putWord s.host.tb j w)) ∨
      (op = .rewind ∧ t = s.setTp 0) ∨
      (∃ key iv, op = .construct key iv ∧ key.length ≤ 255 ∧ iv.length ≤ 255 ∧
        t = s.issueFirst (constructEvents key iv)) ∨
      (∃ e, op = .confirm e ∧ t = (s.setTp 128).setReport .constructed) ∨
      (∃ buf n, op = .apply buf (n + 1) ∧
        t = s.issueFirst (nextBlockEvents ++ [.driver .rewind, .driver (.apply buf (n + 1))])) ∨
      (∃ buf n tp, op = .apply buf (n + 1) ∧ t = (xorByte buf tp s).issueFirst [.driver (.apply (buf + 1) n)]) ∨
      (∃ r, ((∃ key iv, op = .construct key iv) ∨ (∃ e, op = .confirm e) ∨ op = .dispose) ∧
        t = ((s.setReport r).setTb (Vector.replicate 128 0)).issueFirst [issue .zeroize]) := by
  cases op with
  | construct key iv =>
    simp only [driverStep, driverConstruct] at h
    split at h <;> cases h
    · exact .inr (.inr (.inr (.inr (.inr (.inr (.inr ⟨_, .inl ⟨_, _, rfl⟩, rfl⟩))))))
    · next hl => exact .inr (.inr (.inr (.inl ⟨_, _, rfl, by omega, by omega, rfl⟩)))
  | confirm v =>
    simp only [driverStep, driverConfirm] at h
    split at h
    · cases h
    · split at h <;> cases h
      · exact .inr (.inr (.inr (.inr (.inl ⟨_, rfl, rfl⟩))))
      · exact .inr (.inr (.inr (.inr (.inr (.inr (.inr ⟨_, .inr (.inl ⟨_, rfl⟩), rfl⟩))))))
  | apply buf n =>
    simp only [driverStep] at h
    cases hm : s.host.report.mayConsume with
    | false => rw [driverApply_unconfirmed hm] at h; cases h; exact .inl ⟨rfl, _, _, rfl⟩
    | true =>
      cases n with
      | zero => rw [driverApply_zero] at h; cases h; exact .inl ⟨rfl, _, _, rfl⟩
      | succ n =>
        by_cases htp : s.host.tp.val < 128
        · rw [driverApply_byte hm htp] at h; cases h
          exact .inr (.inr (.inr (.inr (.inr (.inr (.inl ⟨_, _, _, rfl, rfl⟩))))))
        · rw [driverApply_fetch hm (Fin.ext (by have := s.host.tp.isLt; show _ = 128; omega))] at h; cases h
          exact .inr (.inr (.inr (.inr (.inr (.inl ⟨_, _, rfl, rfl⟩)))))
  | takeWord j =>
    simp only [driverStep, driverTakeWord] at h
    split at h <;> cases h
    exact .inr (.inl ⟨_, _, rfl, rfl⟩)
  | rewind => cases h; exact .inr (.inr (.inl ⟨rfl, rfl⟩))
  | dispose => cases h; exact .inr (.inr (.inr (.inr (.inr (.inr (.inr ⟨s.host.report, .inr (.inr rfl), rfl⟩))))))

end Sys2Proof.Machine
end

