-- ==== Sys2Proof/Machine/Assembler.lean ====
section
/-! DEFINITION. The spec's assembly text and its pseudo-instructions (30_encoding.md R79, R80): one line of text
to the transactions it stands for. Text is a list of characters, so that the kernel can evaluate it. -/

namespace Sys2Proof.Machine

/-! ## Tokens -/

/-- R79: a comment starts with `;`. -/
def stripComment : List Char → List Char
  | [] => []
  | ch :: cs => if ch = ';' then [] else ch :: stripComment cs

/-- The characters between tokens: a space, a tab and the comma of R79. -/
def isSeparator (ch : Char) : Bool := ch == ' ' || ch == '\t' || ch == ','

/-- The tokens of a line, `cur` being the token read so far, reversed. -/
def tokensFrom (cur : List Char) : List Char → List (List Char)
  | [] => if cur.isEmpty then [] else [cur.reverse]
  | ch :: cs =>
    if isSeparator ch then (if cur.isEmpty then tokensFrom [] cs else cur.reverse :: tokensFrom [] cs)
    else tokensFrom (ch :: cur) cs

/-- The tokens of a line. -/
def tokens (line : List Char) : List (List Char) := tokensFrom [] (stripComment line)

/-! ## Literals -/

/-- The value of a digit, 0..9, a..f or A..F. -/
def digitValue (ch : Char) : Option Nat :=
  let n := ch.toNat
  if 48 ≤ n ∧ n ≤ 57 then some (n - 48)
  else if 97 ≤ n ∧ n ≤ 102 then some (n - 87)
  else if 65 ≤ n ∧ n ≤ 70 then some (n - 55)
  else none

/-- Digits in a base after the value `acc`. -/
def digitsFrom (base acc : Nat) : List Char → Option Nat
  | [] => some acc
  | ch :: cs =>
    match digitValue ch with
    | none => none
    | some d => if d < base then digitsFrom base (acc * base + d) cs else none

/-- R79: a hexadecimal or decimal literal. -/
def literal : List Char → Option Nat
  | [] => none
  | ['0', 'x'] => none
  | '0' :: 'x' :: ds => digitsFrom 16 0 ds
  | ds => digitsFrom 10 0 ds

/-- R79: a literal below 2^64. -/
def imm64 (t : List Char) : Option Word64 :=
  match literal t with
  | none => none
  | some n => if n < 2 ^ 64 then some (BitVec.ofNat 64 n) else none

/-- R80: a length `name=<value>` that fits its 8-bit field. DESIGN CHOICE: the value is a decimal or `0x` hexadecimal
literal with no space around `=`, since R80 does not give the form of `<a>` and `<b>` (log 22). -/
def lengthToken (name t : List Char) : Option (BitVec 8) :=
  if t.take name.length = name then
    match literal (t.drop name.length) with
    | none => none
    | some n => if n < 256 then some (BitVec.ofNat 8 n) else none
  else none

/-- R79: a slot by its name or its decimal number. -/
def slotToken : List Char → Option (BitVec 4)
  | ['K', 'E', 'Y', d] => (literal [d]).bind fun n => if n < 8 then some (BitVec.ofNat 4 n) else none
  | ['I', 'V', d] => (literal [d]).bind fun n => if n < 4 then some (BitVec.ofNat 4 (8 + n)) else none
  | ['C', 'M', 'D'] => some 12
  | ['S', 'T', 'A', 'T', 'U', 'S'] => some 13
  | ['K', 'S', 'O', 'U', 'T'] => some 14
  | ['R', 'S', 'V', '1', '5'] => some 15
  | ds => (digitsFrom 10 0 ds).bind fun n => if ds ≠ [] ∧ n < 16 then some (BitVec.ofNat 4 n) else none

/-! ## Lines -/

/-- R79: `WR <slot>, <imm64>`. -/
def asmWrite (slot : BitVec 4) (v : Word64) : Transaction := ⟨mkHeader true slot, v⟩

/-- R79: `RD <slot>`. -/
def asmRead (slot : BitVec 4) : Transaction := ⟨mkHeader false slot, 0⟩

/-- R80: consecutive writes from a slot on, one for each literal. -/
def asmWrites (slot : BitVec 4) : List (List Char) → Option (List Transaction)
  | [] => some []
  | t :: ts =>
    match imm64 t, asmWrites (slot + 1) ts with
    | some v, some rest => some (asmWrite slot v :: rest)
    | _, _ => none

/-- R80: a command as a WR CMD. -/
def asmCommand (i : Instr) : Option (List Transaction) := some [encodeTransaction i]

/-- R79, R80: the transactions of a line's tokens; none where the line is no line of the syntax. DESIGN CHOICE: a line
that is blank or only a comment is a line of no transaction, since R79 says only "one transaction per line" (log 22). -/
def assembleTokens : List (List Char) → Option (List Transaction)
  | [] => some []
  | [['W', 'R'], slot, v] =>
    match slotToken slot, imm64 v with
    | some i, some x => some [asmWrite i x]
    | _, _ => none
  | [['R', 'D'], slot] => (slotToken slot).map fun i => [asmRead i]
  | [['N', 'O', 'P']] => asmCommand .nop
  | [['Z', 'E', 'R', 'O', 'I', 'Z', 'E']] => asmCommand .zeroize
  | [['C', 'L', 'R', 'E', 'R', 'R']] => asmCommand .clrerr
  | [['S', 'E', 'T', 'U', 'P', '2', '5', '6']] => asmCommand (.setup 32 32)
  | [['S', 'E', 'T', 'U', 'P', '5', '1', '2']] => asmCommand (.setup 64 32)
  | [['S', 'E', 'T', 'U', 'P'], kl, il] =>
    match lengthToken ['k', 'l', 'e', 'n', '='] kl, lengthToken ['i', 'v', 'l', 'e', 'n', '='] il with
    | some a, some b => asmCommand (.setup a b)
    | _, _ => none
  | [['L', 'D', 'K', 'E', 'Y', '2', '5', '6'], k0, k1, k2, k3] => asmWrites 0 [k0, k1, k2, k3]
  | [['L', 'D', 'K', 'E', 'Y', '5', '1', '2'], k0, k1, k2, k3, k4, k5, k6, k7] =>
    asmWrites 0 [k0, k1, k2, k3, k4, k5, k6, k7]
  | [['L', 'D', 'I', 'V'], v0, v1, v2, v3] => asmWrites 8 [v0, v1, v2, v3]
  | [['N', 'E', 'X', 'T', 'W', 'O', 'R', 'D']] => some [asmRead 14]
  | [['N', 'E', 'X', 'T', 'B', 'L', 'O', 'C', 'K']] => some (List.replicate 16 (asmRead 14))
  | _ => none

/-- R79, R80: a line of assembly text. -/
def assembleLine (line : List Char) : Option (List Transaction) := assembleTokens (tokens line)

end Sys2Proof.Machine
end

