-- ==== Sys2Proof/Tests/Slice0.lean ====
section
/-! SUPPORT. Tests on fixed values, their expected results from the spec's examples and vectors (95_test_vectors.md),
and for every statement with hypotheses a witness that meets them. -/

namespace Sys2Proof.Tests

open Sys2Proof.Machine Sys2Proof.Claims

/-! ## The test configurations of 95_test_vectors.md section 2 -/

theorem rot_cancel (x : Word64) (k : Nat) (hk : k < 64) : (x.rotateLeft k).rotateRight k = x := by
  ext i hi
  simp only [BitVec.getElem_rotateRight, BitVec.getElem_rotateLeft, Nat.mod_eq_of_lt hk]
  split_ifs <;> first | omega | (congr 1; omega)
theorem rot_cancel' (x : Word64) (k : Nat) (hk : k < 64) : (x.rotateRight k).rotateLeft k = x := by
  ext i hi
  simp only [BitVec.getElem_rotateRight, BitVec.getElem_rotateLeft, Nat.mod_eq_of_lt hk]
  split_ifs <;> first | omega | (congr 1; omega)

/-- Rotation as a permutation. -/
def rotPerm (k : Nat) (hk : k < 64) : Equiv.Perm Word64 :=
  ⟨fun x => x.rotateLeft k, fun x => x.rotateRight k, fun x => rot_cancel x k hk, fun x => rot_cancel' x k hk⟩
/-- XOR with a constant as a permutation. -/
def xorPerm (m : Word64) : Equiv.Perm Word64 :=
  ⟨fun x => x ^^^ m, fun x => x ^^^ m, fun x => by simp, fun x => by simp⟩

/-- CM256, the candidate map of 41_setup.md. -/
def cm256 : Fin 16 → Slot 4 := (#v[⟨3, some 0, false⟩, ⟨2, none, false⟩, ⟨1, some 1, false⟩, ⟨0, some 2, false⟩,
  ⟨3, none, false⟩, ⟨2, some 3, false⟩, ⟨1, none, true⟩, ⟨0, none, true⟩, ⟨3, none, false⟩, ⟨2, none, false⟩,
  ⟨1, none, true⟩, ⟨0, none, false⟩, ⟨3, none, false⟩, ⟨2, none, true⟩, ⟨1, none, false⟩, ⟨0, none, true⟩] : Vector (Slot 4) 16).get
/-- CM512, the candidate map of 41_setup.md. -/
def cm512 : Fin 16 → Slot 8 := (#v[⟨7, some 0, false⟩, ⟨6, none, false⟩, ⟨5, none, false⟩, ⟨4, some 1, false⟩,
  ⟨3, none, false⟩, ⟨2, some 2, false⟩, ⟨1, none, false⟩, ⟨0, none, true⟩, ⟨4, some 3, false⟩, ⟨6, none, true⟩,
  ⟨5, none, false⟩, ⟨7, none, true⟩, ⟨3, none, false⟩, ⟨2, none, false⟩, ⟨1, none, true⟩, ⟨0, none, false⟩] : Vector (Slot 8) 16).get
/-- TC0. -/
def tc0 : Config := ⟨Equiv.refl _, Equiv.refl _, cm256, cm512⟩
/-- TC1. -/
def tc1 : Config := ⟨rotPerm 8 (by decide), (rotPerm 1 (by decide)).trans (xorPerm 0x0123456789ABCDEF), cm256, cm512⟩
/-- BASE. -/
def base : CipherInstance :=
  { S := #v[0x0706050403020100, 0x0f0e0d0c0b0a0908, 0x1716151413121110, 0x1f1e1d1c1b1a1918, 0x2726252423222120,
      0x2f2e2d2c2b2a2928, 0x3736353433323130, 0x3f3e3d3c3b3a3938, 0x4746454443424140, 0x4f4e4d4c4b4a4948,
      0x5756555453525150, 0x5f5e5d5c5b5a5958, 0x6766656463626160, 0x6f6e6d6c6b6a6968, 0x7776757473727170,
      0x7f7e7d7c7b7a7978],
    R0 := 0x8000000000000001, R1 := 0xFFFFFFFFFFFFFFFF, G := Vector.replicate 16 0, cur := 0 }

/-! ## Helpers -/

/-- The state an instruction leads to. -/
def after (i : Instr) (s : State) : State :=
  match exec i s with
  | .next t => t
  | .fault _ => State.reset
  | .refused _ => State.reset

/-- The state a step leads to. -/
def afterStep (s : State) : State :=
  match step s with
  | .next t => t
  | .fault _ => State.reset
  | .refused _ => State.reset

/-- What a read returns. -/
def readBack (i : Instr) (s : State) : Option Word64 := (after i s).host.returned.head?

/-- A state with an instance, its buffer words 0xA0 + i and its cursor at `c`. -/
def live (c : Fin 17) : State :=
  { State.reset with
    ready := true
    inst := { base with G := Vector.ofFn fun i : Fin 16 => BitVec.ofNat 64 (0xA0 + i.val), cur := c } }

/-- The key words of the DOC's known-answer key (V-PRIM-9, R54). -/
def katKey : Vector Word64 8 := #v[0, 0, 0, 0x8000000000000000, 0, 0, 0, 0]

/-- A state with other staged words. -/
def staged : State :=
  { State.reset with key := #v[1, 2, 3, 4, 5, 6, 7, 8], iv := #v[9, 10, 11, 12] }

/-- A state whose host has this record of what it has staged, and is held to R259 or not. -/
def held (strict : Bool) (g : Staged) : State :=
  { State.reset with host := { HostAgent.initial with staged := g, strict := strict } }

/-- A state with a recorded error. -/
def failed : State := { State.reset with err := 0x03 }

/-! ## Well-formedness: ill-formed terms are refused -/

theorem test_reserved_opcode_zero_refused : (Instr.reserved 0).wellFormed = false := by decide
theorem test_reserved_setup_refused : (Instr.reserved 0x202001).wellFormed = false := by decide
theorem test_reserved_setup_bad_lengths_refused : (Instr.reserved 0xFFFF01).wellFormed = false := by decide
theorem test_reserved_zeroize_refused : (Instr.reserved 2).wellFormed = false := by decide
theorem test_reserved_clrerr_refused : (Instr.reserved 3).wellFormed = false := by decide
theorem test_reserved_opcode_four : (Instr.reserved 4).wellFormed = true := by decide
theorem test_reserved_rsv_bit : (Instr.reserved 0x8000000000202001).wellFormed = true := by decide
theorem test_reserved_nop_lens : (Instr.reserved 0x800000).wellFormed = true := by decide

/-! ## Decoding: one word for each row, written from R75 and the programs of 95_test_vectors.md section 4 -/

theorem test_decode_wrKey :
    decode .ht [0b10011, 0, 0, 0, 0, 0, 0, 0, 0x80] = .ok (.wrKey 3 0x8000000000000000) := by decide
theorem test_decode_wrIv :
    decode .ht [0b11001, 0xa8, 0xa9, 0xaa, 0xab, 0xac, 0xad, 0xae, 0xaf] = .ok (.wrIv 1 0xafaeadacabaaa9a8) := by decide
theorem test_decode_wrCmd :
    decode .ht [0b11100, 0x01, 0x20, 0x20, 0, 0, 0, 0, 0] = .ok (.wrCmd 0x0000000000202001) := by decide
theorem test_decode_wrStatus : decodeTableWord 8 0b11101 = some (.wrStatus 0) := by decide
theorem test_decode_wrKsout : decodeTableWord 8 0b11110 = some (.wrKsout 0) := by decide
theorem test_decode_wrRsv15 : decodeTableWord 8 0b11111 = some (.wrRsv15 0) := by decide
theorem test_decode_rdKey : decodeTableWord 8 0b00111 = some (.rdKey 7) := by decide
theorem test_decode_rdIv : decodeTableWord 8 0b01011 = some (.rdIv 3) := by decide
theorem test_decode_rdCmd : decodeTableWord 8 0b01100 = some .rdCmd := by decide
theorem test_decode_rdStatus : decodeTableWord 8 0b01101 = some .rdStatus := by decide
theorem test_decode_rdKsout : decodeTableWord 8 0b01110 = some .rdKsout := by decide
theorem test_decode_rdRsv15 : decodeTableWord 8 0b01111 = some .rdRsv15 := by decide
theorem test_decode_nop : decodeTableWord 64 0x0000000000000000 = some .nop := by decide
theorem test_decode_setup : decodeTableWord 64 0x0000000000102001 = some (.setup 32 16) := by decide
theorem test_decode_zeroize : decodeTableWord 64 0x0000000000000002 = some .zeroize := by decide
theorem test_decode_clrerr : decodeTableWord 64 0x0000000000000003 = some .clrerr := by decide
theorem test_decode_reserved : decodeTableWord 64 0x0000000000000100 = some (.reserved 0x100) := by decide

theorem test_decode_wide_header_rejected :
    decode .ht [0b100000, 0, 0, 0, 0, 0, 0, 0, 0] = .error .headerTooWide := by decide
theorem test_decode_short_rejected : decode .cmd [0x01, 0x20, 0x20] = .error .wrongLength := by decide
theorem test_encode_setup : encode (.setup 64 32) = [0x01, 0x40, 0x20, 0, 0, 0, 0, 0] := by decide
theorem test_encode_wrIv : encode (.wrIv 2 0xFF) = [0b11010, 0xFF, 0, 0, 0, 0, 0, 0, 0] := by decide

/-- V-PRIM-10. -/
theorem test_bytes_le :
    (bytesLe 0xe442d15345dc66ca).toList = [0xca, 0x66, 0xdc, 0x45, 0x53, 0xd1, 0x42, 0xe4] := by decide

/-! ## Assembly text (R79, R80) -/

theorem test_asm_write : assembleLine ['W', 'R', ' ', 'K', 'E', 'Y', '3', ',', ' ', '0', 'x', '8'] =
    some [⟨0b10011, 8⟩] := by decide
theorem test_asm_setup256 : assembleLine ['S', 'E', 'T', 'U', 'P', '2', '5', '6'] =
    some [⟨0b11100, 0x0000000000202001⟩] := by decide
theorem test_asm_ldiv : assembleLine ['L', 'D', 'I', 'V', ' ', '1', ',', '2', ',', '3', ',', '4', ';', 'x'] =
    some [⟨0b11000, 1⟩, ⟨0b11001, 2⟩, ⟨0b11010, 3⟩, ⟨0b11011, 4⟩] := by decide

/-! ## Meanings, after V-HOST-1 to V-HOST-18 -/

theorem test_wrKey_stages : (after (.wrKey 3 0x8000000000000000) State.reset).key = katKey := by decide
theorem test_wrIv_last_wins : (after (.wrIv 3 5) (after (.wrIv 3 7) State.reset)).iv = #v[0, 0, 0, 5] := by decide
theorem test_wrCmd_reserved : (after (.wrCmd 7) State.reset).status = 0x400 := by decide
theorem test_wrCmd_rsv_before_lengths : (after (.wrCmd 0x0000000100202001) State.reset).status = 0x400 := by decide
theorem test_wrStatus_ignored : readBack .rdStatus (after (.wrStatus 0xFFFFFFFFFFFFFFFF) State.reset) = some 0 := by
  decide
theorem test_wrKsout_keeps_cursor : (after (.wrKsout 1) (live 7)).inst.cur = 7 := by decide
theorem test_wrRsv15_no_error : (after (.wrRsv15 1) State.reset).err = 0 := by decide
theorem test_rdKey_zero : readBack (.rdKey 0) (after (.wrKey 0 5) State.reset) = some 0 := by decide
theorem test_rdIv_zero : readBack (.rdIv 2) staged = some 0 := by decide
theorem test_rdCmd_zero : readBack .rdCmd staged = some 0 := by decide
theorem test_rdRsv15_zero : readBack .rdRsv15 failed = some 0 := by decide
theorem test_rdStatus_live512 : readBack .rdStatus { live 0 with variant := .v512 } = some 3 := by decide
theorem test_rdStatus_keeps_error : (after .rdStatus failed).err = 0x03 ∧ readBack .rdStatus failed = some 0x300 := by
  decide
theorem test_rdKsout_word : readBack .rdKsout (live 14) = some 0xAE ∧ (after .rdKsout (live 14)).inst.cur = 15 := by
  decide
theorem test_rdKsout_not_ready :
    readBack .rdKsout State.reset = some 0 ∧ (after .rdKsout State.reset).status = 0x300 := by decide
theorem test_nop_keeps_error : (after .nop failed).err = 0x03 := by decide
theorem test_setup_klen33 : (after (.setup 33 32) staged).status = 0x100 ∧
    (after (.setup 33 32) staged).key = Vector.replicate 8 0 := by decide
theorem test_setup_ivlen16_keeps_instance : (after (.setup 32 16) (live 2)).inst = (live 2).inst ∧
    (after (.setup 32 16) (live 2)).status = 0x101 := by decide
theorem test_zeroize_keeps_error : (after .zeroize { live 3 with err := 1 }).status = 0x100 := by decide
theorem test_zeroize_clears_R : (after .zeroize (live 3)).inst.R1 = 0 := by decide
theorem test_clrerr : (after .clrerr failed).status = 0 := by decide
theorem test_reserved_first_error_kept : (after (.reserved 4) failed).err = 0x03 := by decide
theorem test_reserved_keeps_staging : (after (.reserved 4) staged).key = staged.key := by decide

/-! ## The mixing engine, after V-SET, V-MIX and V-CON -/

/-- V-SET-1. -/
theorem test_load : (load tc0 .v256 katKey (Vector.replicate 4 0) .zero).S =
    #v[0x8000000000000000, 0, 0, 0, 0x8000000000000000, 0, 0xffffffffffffffff, 0xffffffffffffffff,
      0x8000000000000000, 0, 0xffffffffffffffff, 0, 0x8000000000000000, 0xffffffffffffffff, 0,
      0xffffffffffffffff] := by decide +kernel

/-- V-SET-2, slots 0, 8 and 11. -/
theorem test_load512 :
    let x := load tc0 .v512
      #v[0x0706050403020100, 0x0f0e0d0c0b0a0908, 0x1716151413121110, 0x1f1e1d1c1b1a1918, 0x2726252423222120,
        0x2f2e2d2c2b2a2928, 0x3736353433323130, 0x3f3e3d3c3b3a3938]
      #v[0xa7a6a5a4a3a2a1a0, 0xafaeadacabaaa9a8, 0xb7b6b5b4b3b2b1b0, 0xbfbebdbcbbbab9b8] base
    x.lane 0 = 0x9898989898989898 ∧ x.lane 8 = 0x9898989898989898 ∧ x.lane 11 = 0xc0c1c2c3c4c5c6c7 ∧ x.R1 = 0 := by
  decide +kernel

/-- V-MIX-1. -/
theorem test_initLane : (initLane tc0 0 base).lane 0 = 0x37b7b7b7b7b7b7b6 ∧
    (initLane tc0 0 base).R0 = 0x6f6e6d6c6b6a6967 := by decide +kernel

/-- V-MIX-6: the neighbour index wraps. -/
theorem test_initLane_wraps : (initLane tc1 15 base).lane 15 = 0x41c5c5c1c1c5c5c0 ∧
    (initLane tc1 15 base).R1 = 0x0123456789abcdec := by decide +kernel

/-- V-MIX-10. -/
theorem test_genLane : (genLane tc1 15 base).lane 15 = 0x494c4f4a4d484b4e ∧
    (genLane tc1 15 base).gamma 15 = 0xb697f4cd3a036041 := by decide +kernel

/-- V-MIX-TC1-INITPASS. -/
theorem test_initPass : (initPass tc1 base).lane 15 = 0x4e26b3b66f61043a ∧
    (initPass tc1 base).R1 = 0x3cfb5d7d59f36d86 := by decide +kernel

/-- V-MIX-TC1-GENPASS: lane 15 reads the S[0] of the same pass. -/
theorem test_genPass : (genPass tc1 base).gamma 15 = 0x1350e52713f4d2ac ∧
    (genPass tc1 base).R0 = 0x9cb843b167935a80 := by decide +kernel

/-- V-CON-TC1, V-KS-1, V-KS-2. -/
theorem test_construct : (construct tc1 .v256 katKey (Vector.replicate 4 0) base).gamma 0 = 0xce109d280e9d1aaf ∧
    (construct tc1 .v256 katKey (Vector.replicate 4 0) base).gamma 1 = 0xdefe95a50f5ffc37 := by decide +kernel

/-- V-HOST-6, the parts that no primitive enters. -/
theorem test_setup512 : (setupUnder tc1 64 32 staged).status = 3 ∧
    (setupUnder tc1 64 32 staged).key = Vector.replicate 8 0 := by decide +kernel

/-- V-PRIM-11, V-PRIM-12, V-PRIM-16. -/
theorem test_primitives : fieldMul tc1 0x0706050403020100 = 0x0605040302010007 ∧
    fieldMulInv tc1 0x0706050403020100 = 0x0007060504030201 ∧
    transform tc1 0x8000000000000001 = 0x0123456789abcdec := by decide +kernel

/-! ## Steps -/

theorem test_step_fetches_table_word :
    (afterStep (State.reset.withFetchWord 8 0b01101)).host.returned = [0] := by decide
theorem test_step_runs_command : (afterStep (State.reset.withFetchWord 64 0x07)).err = 0x04 := by decide
theorem test_step_idle : afterStep (live 3) = live 3 := rfl
theorem test_step_reset : afterStep (withProgram { live 3 with err := 4 } [.reset]) = State.reset := rfl

/-- R201: one byte of the tail. -/
theorem test_apply_byte :
    let s := afterStep { withProgram (live 3) [.driver (.apply 5 1)] with
      host := { HostAgent.initial with program := [.driver (.apply 5 1)], tb := Vector.replicate 128 0xAF, tp := 127,
                                       mem := [(5, 0x01)] } }
    s.host.mem = [(5, 0xAE)] ∧ s.host.tp = 128 ∧ s.host.program = [.driver (.apply 6 0)] := by decide

/-- V-DRV-6: no bytes, no read. -/
theorem test_apply_nothing :
    afterStep (withProgram (live 3) [.driver (.apply 5 0)]) = live 3 := rfl

/-- R204, R206: an earlier error keeps the construction from being confirmed, and it ends in a disposal. -/
theorem test_confirm_after_old_error :
    let s := afterStep { live 0 with
      host := { HostAgent.initial with program := [.driver (.confirm (some .v256))], returned := [0x301], tp := 5,
                                       tb := Vector.replicate 128 0xAF } }
    s.host.report = .notConfirmed 0x301 ∧ s.host.tb = Vector.replicate 128 0 ∧
      s.host.program = [.transaction ⟨0b11100, 2⟩] := ⟨rfl, rfl, rfl⟩

/-- R204: STATUS 0x1 confirms an instance of variant 256, not one of variant 512. -/
theorem test_confirm :
    let s := fun e => afterStep { live 0 with
      host := { HostAgent.initial with program := [.driver (.confirm (some e))], returned := [0x1], tp := 5 } }
    (s .v256).host.report = .constructed ∧ (s .v256).host.tp = 128 ∧ (s .v512).host.report = .notConfirmed 0x1 :=
  ⟨rfl, rfl, rfl⟩

/-- R200, R253: a SETUP that the host issues itself empties the tail; one with a wrong length does not. -/
theorem test_plain_setup_empties_the_tail :
    ((live 3).setTp 5 |>.hostAfter (.wrCmd 0x202001)).host.tp = 128 ∧
    ((live 3).setTp 5 |>.hostAfter (.wrCmd 0x202101)).host.tp = 5 := by decide

/-- R201, R252: after a failed construction a plain successful SETUP lets the driver consume keystream; a failed SETUP
and ZEROIZE do not. -/
theorem test_plain_setup_withdraws_a_failure :
    let s := (live 3).setReport (.notConfirmed 0x301)
    (s.hostAfter (.wrCmd 0x202001)).host.report.mayConsume = true ∧
    (s.hostAfter (.wrCmd 0x202101)).host.report.mayConsume = false ∧
    (s.hostAfter (.wrCmd 2)).host.report.mayConsume = false := by decide

/-- R259, R258: one key word written and the rest not. A strict host stops; the block runs on with zeros. -/
theorem test_early_setup :
    let g := Staged.empty.after (.wrKey 3 1)
    step (withProgram (held true g) [.transaction ⟨0b11100, 0x202001⟩]) = .fault .setupBeforeStaged ∧
    (held false g).hostFault (.wrCmd 0x202001) = false ∧
    (held true g).hostFault (.wrCmd 0x202101) = false := ⟨rfl, rfl, rfl⟩

/-! ## Witnesses: a state and operands that meet each statement's hypotheses -/

/-- A live instance meets the invariant, with its cursor at either end of its range. -/
theorem live_inv : (live 0).Inv ∧ (live 15).Inv :=
  ⟨⟨by decide, fun h => (by cases h), fun h => (by cases h), .inl rfl, rfl⟩,
    ⟨by decide, fun h => (by cases h), fun h => (by cases h), .inl rfl, rfl⟩⟩

theorem witness_WriteKeyStagesOneWord :
    (0 : Fin 8) ≠ 7 ∧ 4 ≤ (4 : Fin 8).val ∧ 4 ≤ (7 : Fin 8).val := by decide
theorem witness_WriteIvStagesOneWord : (0 : Fin 4) ≠ 3 := by decide
theorem witness_KeystreamReadWithNoInstance : State.reset.ready = false ∧ failed.ready = false := by decide
theorem witness_KeystreamReadReturnsTheWordAtTheCursor :
    ((live 0).ready = true ∧ (live 0).inst.cur.val < 15) ∧ ((live 14).ready = true ∧ (live 14).inst.cur.val < 15) ∧
    ((live 15).ready = true ∧ (live 15).inst.cur = 15) := by decide
theorem witness_SetupWithInvalidLengthKeepsTheInstance :
    (((31 : BitVec 8) ≠ 32 ∧ (31 : BitVec 8) ≠ 64) ∨ (32 : BitVec 8) ≠ 32) ∧
    (((33 : BitVec 8) ≠ 32 ∧ (33 : BitVec 8) ≠ 64) ∨ (32 : BitVec 8) ≠ 32) ∧
    (((63 : BitVec 8) ≠ 32 ∧ (63 : BitVec 8) ≠ 64) ∨ (32 : BitVec 8) ≠ 32) ∧
    (((65 : BitVec 8) ≠ 32 ∧ (65 : BitVec 8) ≠ 64) ∨ (32 : BitVec 8) ≠ 32) ∧
    (((64 : BitVec 8) ≠ 32 ∧ (64 : BitVec 8) ≠ 64) ∨ (33 : BitVec 8) ≠ 32) ∧
    (((32 : BitVec 8) ≠ 32 ∧ (32 : BitVec 8) ≠ 64) ∨ (31 : BitVec 8) ≠ 32) := by decide
theorem witness_Variant256IgnoresUpperKeyWords :
    ∀ i : Fin 8, i.val < 4 → rget (#v[1, 2, 3, 4, 0, 0, 0, 0] : Vector Word64 8) i = rget staged.key i := by decide
theorem witness_ZeroizeErasesTheBlock :
    (∀ i ∈ [Instr.rdKsout, .setup 33 32], ∀ a b, effectOf i = .setup a b → variantOfLengths a b = none) ∧
    ∃ u, runInstrs [Instr.rdKsout, .setup 33 32] (after .zeroize (live 3)) = .next u := by
  refine ⟨fun i hi a b h => ?_, ⟨_, rfl⟩⟩
  simp only [List.mem_cons, List.not_mem_nil, or_false] at hi
  rcases hi with rfl | rfl
  · cases h
  · cases h; decide
theorem witness_ReservedWordChangesOnlyErr :
    reservedWord 4 = true ∧ reservedWord 0xFF = true ∧ reservedWord 0x100 = true ∧ reservedWord 0x800002 = true ∧
    reservedWord 0x103 = true ∧ reservedWord 0x1000001 = true ∧ reservedWord 0x8000000000000000 = true :=
  ⟨by decide, by decide, by decide, by decide, by decide, by decide, by decide⟩
theorem witness_CommandWriteRunsItsCommand :
    ((0x1000000 : Word64).extractLsb' 24 40 ≠ 0 ∧ (0x8000000000202001 : Word64).extractLsb' 24 40 ≠ 0) ∧
    ((0x202001 : Word64).extractLsb' 24 40 = 0 ∧ (0x202001 : Word64).extractLsb' 0 8 = 0x01) ∧
    ((0x04 : Word64).extractLsb' 24 40 = 0 ∧ 0x04 ≤ (0x04 : Word64).extractLsb' 0 8 ∧
      0x04 ≤ (0xFF : Word64).extractLsb' 0 8) ∧
    ((0x102 : Word64).extractLsb' 24 40 = 0 ∧ (0x102 : Word64).extractLsb' 0 8 ≠ 0x01 ∧
      (0x102 : Word64).extractLsb' 8 16 ≠ 0 ∧ (0x800000 : Word64).extractLsb' 8 16 ≠ 0) ∧
    ((0 : Word64).extractLsb' 24 40 = 0 ∧ (0 : Word64).extractLsb' 8 16 = 0 ∧ (0 : Word64).extractLsb' 0 8 = 0x00) ∧
    ((2 : Word64).extractLsb' 8 16 = 0 ∧ (2 : Word64).extractLsb' 0 8 = 0x02) ∧
    ((3 : Word64).extractLsb' 8 16 = 0 ∧ (3 : Word64).extractLsb' 0 8 = 0x03) :=
  ⟨by decide, by decide, by decide, by decide, by decide, by decide, by decide⟩
theorem witness_FirstErrorIsKept :
    (∃ t, exec .rdKsout failed = .next t ∧ failed.err ≠ 0 ∧ effectOf .rdKsout ≠ .clrerr) ∧
    (∃ t, exec (.wrCmd 2) failed = .next t ∧ effectOf (.wrCmd 2) ≠ .clrerr) ∧
    (withProgram failed [.reset]).host.program = .reset :: [] :=
  ⟨⟨_, rfl, by decide, by decide⟩, ⟨_, rfl, by decide⟩, rfl⟩
theorem witness_EveryErrorCodeHasItsCause :
    (∃ t, exec (.setup 31 32) State.reset = .next t ∧ State.reset.err = 0 ∧ t.err ≠ 0) ∧
    (∃ t, exec .rdKsout State.reset = .next t ∧ t.err ≠ 0) ∧
    (∃ t, exec (.wrCmd 4) State.reset = .next t ∧ t.err ≠ 0) ∧
    (∃ t, exec (.reserved 4) State.reset = .next t ∧ t.err ≠ 0) :=
  ⟨⟨_, rfl, by decide, by decide⟩, ⟨_, rfl, by decide⟩, ⟨_, rfl, by decide⟩, ⟨_, rfl, by decide⟩⟩
theorem witness_ErrorsLeaveTheInstanceAlone :
    (∃ t, exec (.setup 32 16) (live 2) = .next t ∧ t.err ≠ (live 2).err) ∧
    (∃ t, exec .clrerr failed = .next t ∧ t.err ≠ failed.err) :=
  ⟨⟨_, rfl, by decide⟩, ⟨_, rfl, by decide⟩⟩
theorem keepsInstance_rdKsout : keepsInstance .rdKsout := ⟨fun _ _ h => (by cases h), by decide⟩
theorem keepsInstance_badSetup : keepsInstance (.setup 31 32) := ⟨fun _ _ h => (by cases h; decide), by decide⟩
theorem keepsInstance_wrKey : keepsInstance (.wrKey 4 9) := ⟨fun _ _ h => (by cases h), by decide⟩
theorem witness_OnlySetupZeroizeAndKeystreamReadsChangeTheInstance :
    (∃ t, exec .rdKsout (live 0) = .next t ∧ keepsInstance .rdKsout) ∧
    (∃ t, exec (.setup 31 32) (live 0) = .next t ∧ keepsInstance (.setup 31 32) ∧ Instr.setup 31 32 ≠ .rdKsout) :=
  ⟨⟨_, rfl, keepsInstance_rdKsout⟩, ⟨_, rfl, keepsInstance_badSetup, by decide⟩⟩
theorem witness_OnlyWritesSetupAndZeroizeChangeStaging :
    ∃ t, exec (.wrIv 3 1) staged = .next t ∧ (∀ a b, effectOf (.wrIv 3 1) ≠ .setup a b) ∧
      effectOf (.wrIv 3 1) ≠ .zeroize ∧ (∀ k v, Instr.wrIv 3 1 ≠ .wrKey k v) :=
  ⟨_, rfl, fun _ _ h => (by cases h), by decide, fun _ _ h => (by cases h)⟩
theorem witness_BlockEffectLeavesTheHostAlone : ∃ t, exec .rdStatus (live 0) = .next t := ⟨_, rfl⟩
theorem witness_StagedMaterialNeverReachesTheHost :
    staged = { State.reset with key := staged.key, iv := staged.iv } ∧
    (∃ t, exec (.setup 32 32) State.reset = .next t) ∧
    (∃ t, exec .rdKsout State.reset = .next t ∧ keepsInstance .rdKsout) :=
  ⟨rfl, ⟨_, rfl⟩, ⟨_, rfl, keepsInstance_rdKsout⟩⟩
theorem witness_InitLaneFormula : (0 : Fin 16) ≠ 15 := by decide
theorem witness_GenLaneFormula : (15 : Fin 16) ≠ 0 := by decide
theorem witness_KeystreamWordFormula : (live 0).ready = true ∧ (live 0).inst.cur = 0 := by decide
theorem witness_SameKeySameKeystream :
    (∀ i : Fin 8, i.val < keyWordsOf .v256 →
      rget staged.key i = rget ({ staged with key := #v[1, 2, 3, 4, 0, 0, 0, 0] } : State).key i) ∧
    (∀ i : Fin 8, i.val < keyWordsOf .v512 → rget staged.key i = rget { staged with err := 1 }.key i) ∧
    staged.iv = { staged with err := 1 }.iv := by decide
theorem witness_InterleavingKeepsTheKeystream :
    (live 15).ready = true ∧ (live 15).inst.cur.val < 16 ∧
    ∀ i ∈ [Instr.rdKsout, .wrKey 4 9, .setup 31 32, .rdKsout], keepsInstance i := by
  refine ⟨by decide, by decide, fun i hi => ?_⟩
  simp only [List.mem_cons, List.not_mem_nil, or_false] at hi
  rcases hi with rfl | rfl | rfl | rfl
  · exact keepsInstance_rdKsout
  · exact keepsInstance_wrKey
  · exact keepsInstance_badSetup
  · exact keepsInstance_rdKsout
theorem witness_EncodingMapIsTheTable :
    (4 : Word64) ≠ 0 ∧ (∀ a b : BitVec 8, (4 : Word64) ≠ 0#40 ++ b ++ a ++ 0x01#8) ∧ (4 : Word64) ≠ 2 ∧
    (4 : Word64) ≠ 3 :=
  ⟨by decide, fun a b h => (by
    have low : ∀ x : BitVec 56, (x ++ 0x01#8 : Word64).getLsbD 0 = true := fun x => by
      rw [BitVec.getLsbD_append]; rfl
    exact absurd (h ▸ low (0#40 ++ b ++ a)) (by decide)), by decide, by decide⟩
theorem witness_DecodeAfterEncode :
    (Instr.wrKey 7 0xFFFFFFFFFFFFFFFF).wellFormed = true ∧ (Instr.setup 255 0).wellFormed = true ∧
    (Instr.reserved 0xFFFFFFFFFFFFFFFF).wellFormed = true := by decide
theorem witness_ReservedWordsAreTheThreeKinds :
    (0xFF0001 : Word64).extractLsb' 0 8 = 1 ∧ (0xFF0001 : Word64).extractLsb' 24 40 = 0 := by decide
theorem witness_StepRunsTheDecodedTransaction :
    (withProgram staged [.transaction ⟨0b01110, 0⟩]).host.program = .transaction ⟨0b01110, 0⟩ :: [] ∧
    decode .ht (bytesOfTransaction ⟨0b01110, 0⟩) = .ok .rdKsout := by decide
theorem witness_StepRunsEveryIssuedInstruction :
    (Instr.setup 64 32).wellFormed = true ∧
    (withProgram staged [.transaction ⟨0b11100, 0x204001⟩]).host.program =
      .transaction (encodeTransaction (.setup 64 32)) :: [] := by decide
theorem witness_ResetEventResetsTheBlock : (withProgram staged [.reset]).host.program = .reset :: [] := rfl
theorem witness_SuccessfulSetupDropsTheTail :
    (decodeTransaction ⟨0b11100, 0x202001⟩ = .wrCmd 0x202001 ∧ decodeCmd 0x202001 = .setup (klenOf .v256) 32) ∧
    (decodeTransaction ⟨0b11100, 0x204001⟩ = .wrCmd 0x204001 ∧ decodeCmd 0x204001 = .setup (klenOf .v512) 32) ∧
    (withProgram (held false .empty) [.transaction ⟨0b11100, 0x202001⟩]).hostFault (.wrCmd 0x202001) = false ∧
    (decodeTransaction ⟨0b11100, 0x202101⟩ = .wrCmd 0x202101 ∧ decodeCmd 0x202101 ≠ .setup (klenOf .v256) 32 ∧
      decodeCmd 0x202101 ≠ .setup (klenOf .v512) 32) ∧
    ∃ u, step (withProgram (live 3) [.transaction ⟨0b01110, 0⟩]) = .next u :=
  ⟨by decide, by decide, by decide, by decide, ⟨_, rfl⟩⟩
theorem witness_UnwrittenStagingRegistersHoldZero :
    State.StagingInv (afterStep (withProgram State.reset [.transaction ⟨0b10011, 7⟩])) ∧
    ∃ t, step (afterStep (withProgram State.reset [.transaction ⟨0b10011, 7⟩])) = .next t :=
  ⟨⟨by decide, by decide⟩, ⟨_, rfl⟩⟩
theorem witness_StepKeepsTheInvariant : (live 15).Inv ∧ ∃ t, step (live 15) = .next t := ⟨live_inv.2, ⟨_, rfl⟩⟩
theorem witness_EveryTransactionCompletes :
    (withProgram (live 15) [.transaction ⟨0b01110, 0⟩]).Inv ∧
    (withProgram (live 15) [.transaction ⟨0b01110, 0⟩]).host.program = .transaction ⟨0b01110, 0⟩ :: [] ∧
    (withProgram (live 15) [.transaction ⟨0b01110, 0⟩]).hostFault (decodeTransaction ⟨0b01110, 0⟩) = false :=
  ⟨⟨by decide, fun h => (by cases h), fun h => (by cases h), .inl rfl, rfl⟩, rfl, rfl⟩
theorem witness_HostBufferReadsWhatWasWritten : Memory.wf [(3, 7), (9, 1)] = true ∧ (4 : Nat) ≠ 3 := by decide
theorem witness_EmptyTailFetchesOneBlock :
    (withProgram (live 0) [.driver (.apply 0 1)]).ready = true ∧
    (withProgram (live 0) [.driver (.apply 0 1)]).inst.cur = 0 ∧
    (withProgram (live 0) [.driver (.apply 0 1)]).host.tp = 128 ∧
    (withProgram (live 0) [.driver (.apply 0 1)]).host.report.mayConsume = true ∧
    (withProgram (live 0) [.driver (.apply 0 1)]).host.program = .driver (.apply 0 (0 + 1)) :: [] := by decide
theorem witness_ApplyXorsTheKeystream :
    (withProgram (live 0) [.driver (.apply 3 129)]).Inv ∧ (withProgram (live 0) [.driver (.apply 3 129)]).ready = true ∧
    (withProgram (live 0) [.driver (.apply 3 129)]).inst.cur = 0 ∧
    (withProgram (live 0) [.driver (.apply 3 129)]).host.tp = 128 ∧
    (withProgram (live 0) [.driver (.apply 3 129)]).host.report.mayConsume = true ∧
    (withProgram (live 0) [.driver (.apply 3 129)]).host.program = .driver (.apply 3 129) :: [] ∧
    (128 : Nat) < 129 ∧ ((2 : Nat) < 3 ∨ 3 + 129 ≤ 2) ∧ ((132 : Nat) < 3 ∨ 3 + 129 ≤ 132) :=
  ⟨⟨by decide, fun h => (by cases h), fun h => (by cases h), .inl rfl, rfl⟩, rfl, rfl, rfl, rfl, rfl, by decide,
    by decide, by decide⟩
theorem witness_SplitCallsEqualOneCall : (live 0).Inv ∧ State.reset.Inv :=
  ⟨live_inv.1, ⟨by decide, fun _ => rfl, fun _ => rfl, .inl rfl, rfl⟩⟩
theorem witness_MatchedInstancesUndoEachOther :
    (live 0).Inv ∧ State.Inv { live 0 with key := katKey } ∧ (live 0).ready = true ∧
    ({ live 0 with key := katKey } : State).ready = true ∧
    (live 0).inst = ({ live 0 with key := katKey } : State).inst ∧
    (live 0).inst.cur = 0 ∧ (live 0).host.tp = 128 ∧ ({ live 0 with key := katKey } : State).host.tp = 128 ∧
    (live 0).host.report.mayConsume = true ∧ ({ live 0 with key := katKey } : State).host.report.mayConsume = true :=
  ⟨live_inv.1, ⟨by decide, fun h => (by cases h), fun h => (by cases h), .inl rfl, rfl⟩,
    rfl, rfl, rfl, rfl, rfl, rfl, rfl, rfl⟩
theorem witness_DriverConstructsFromBytes :
    staged.err = 0 ∧ (List.replicate 31 (0 : Byte) ++ [0x80]).length = 8 * keyWordsOf .v256 ∧
    (List.replicate 64 (1 : Byte)).length = 8 * keyWordsOf .v512 ∧ (List.replicate 32 (0 : Byte)).length = 32 ∧
    (withProgram staged [.driver (.construct (List.replicate 64 1) (List.replicate 32 0))]).host.program =
      .driver (.construct (List.replicate 64 1) (List.replicate 32 0)) :: [] :=
  ⟨rfl, rfl, rfl, rfl, rfl⟩
theorem witness_FailedConstructionDisposes :
    failed.err ≠ 0 ∧ (List.replicate 32 (0 : Byte)).length = 32 ∧
    (∀ n ∈ [0, 31, 33, 63, 65, 255], ¬ (n = 32 ∨ n = 64)) ∧ ¬ (31 : Nat) = 32 ∧ ¬ (33 : Nat) = 32 ∧
    (List.replicate 255 (0 : Byte)).length ≤ 255 ∧
    (withProgram State.reset [.driver (.construct (List.replicate 255 0) [])]).host.program =
      .driver (.construct (List.replicate 255 0) []) :: [] ∧
    (State.reset.setReport .invalidLength).host.report = .invalidLength ∧
    (∃ v, ((live 3).setReport (.notConfirmed 0x301)).host.report = .notConfirmed v) :=
  ⟨by decide, rfl, by decide, by decide, by decide, Nat.le_of_eq List.length_replicate, rfl, rfl, ⟨_, rfl⟩⟩
theorem witness_DriverRejectsLongLengths :
    255 < (List.replicate 256 (0 : Byte)).length ∧ ¬ 255 < (List.replicate 255 (0 : Byte)).length ∧
    (withProgram staged [.driver (.construct (List.replicate 256 0) [])]).host.program =
      .driver (.construct (List.replicate 256 0) []) :: [] :=
  ⟨by rw [List.length_replicate]; decide, by rw [List.length_replicate]; decide, rfl⟩
theorem witness_DisposalErasesBlockAndTail :
    (withProgram (live 3) [.driver .dispose]).host.program = .driver .dispose :: [] := rfl
theorem witness_DisciplinedSetupUsesOnlyWrittenWords :
    let is : List Instr := (List.finRange 8).map (fun k => .wrKey k 7) ++ (List.finRange 4).map (fun k => .wrIv k 5)
    staged.inst = State.reset.inst ∧ staged.ready = State.reset.ready ∧
    (staged.ready = true → staged.inst.cur.val < 16) ∧ (∀ i ∈ is, i.wellFormed = true) ∧
    disciplined .empty ((is ++ [Instr.setup (klenOf .v512) 32]).map fun i =>
      .transaction (encodeTransaction i)) = true ∧
    disciplined .empty ((is ++ [Instr.setup (klenOf .v256) 32]).map fun i =>
      .transaction (encodeTransaction i)) = true ∧
    disciplined .empty ([Instr.setup (klenOf .v256) 32].map fun i =>
      .transaction (encodeTransaction i)) = false := by decide
theorem witness_EarlySetupIsAHostFault :
    let g : Staged := ⟨#v[true, true, true, false, true, true, true, true], Vector.replicate 4 true⟩
    let h : Staged := ⟨Vector.replicate 8 true, #v[true, true, true, false]⟩
    let k : Staged := ⟨#v[true, true, true, true, true, true, true, false], Vector.replicate 4 true⟩
    (∃ i : Fin 8, i.val < keyWordsOf .v256 ∧ (held true g).host.staged.key.get i = false) ∧
    (∃ j : Fin 4, (held false h).host.staged.iv.get j = false) ∧
    (∃ i : Fin 8, i.val < keyWordsOf .v512 ∧ (held true k).host.staged.key.get i = false) ∧
    (held true g).host.strict = true ∧ (held false h).host.strict = false ∧
    decodeTransaction ⟨0b11100, 0x202001⟩ = .wrCmd 0x202001 ∧ decodeCmd 0x202001 = .setup (klenOf .v256) 32 ∧
    (withProgram (held true g) [.transaction ⟨0b11100, 0x202001⟩]).host.program =
      .transaction ⟨0b11100, 0x202001⟩ :: [] :=
  ⟨⟨3, by decide, rfl⟩, ⟨3, rfl⟩, ⟨7, by decide, rfl⟩, rfl, rfl, by decide, by decide, rfl⟩
theorem witness_DisciplinedProgramsNeverSetUpEarly :
    disciplined (held true .empty).host.staged
      [.driver (.construct [1] []), .driver (.apply 0 200), .reset,
        .transaction ⟨0b10000, 1⟩, .driver .dispose] = true ∧
    disciplined .empty [.reset, issue (.setup (klenOf .v256) 32)] = false ∧
    disciplined ⟨Vector.replicate 8 true, Vector.replicate 4 true⟩ [.reset, issue (.setup 32 32)] = false ∧
    disciplined ⟨Vector.replicate 8 true, Vector.replicate 4 true⟩ [issue (.setup 32 32)] = true := by decide

end Sys2Proof.Tests
end

section
/-! SUPPORT. Decoding what the encoder writes (30_encoding.md R71 to R76): the slots of a header, the command words, and
the transaction that issues an instruction. -/

namespace Sys2Proof

/-! ## Slots -/

/-- R74: IDX[2:0] of the slot of KEYk. -/
@[simp] theorem keyIndex_keySlot (k : Fin 8) : keyIndex (0#1 ++ BitVec.ofFin (w := 3) k) = k := by
  revert k; decide

/-- R74: IDX[1:0] of the slot of IVk. -/
@[simp] theorem ivIndex_ivSlot (k : Fin 4) : ivIndex (0b10#2 ++ BitVec.ofFin (w := 2) k) = k := by
  revert k; decide

/-- R75: a write to a slot below 8 is WR KEY. -/
theorem decodeWrite_key {idx : BitVec 4} (h : idx < 8) (v : Word64) : decodeWrite idx v = .wrKey (keyIndex idx) v :=
  if_pos h

/-- R75: a write to a slot in 8..11 is WR IV. -/
theorem decodeWrite_iv {idx : BitVec 4} (h8 : ¬ idx < 8) (h12 : idx < 12) (v : Word64) :
    decodeWrite idx v = .wrIv (ivIndex idx) v := by
  rw [decodeWrite, if_neg h8, if_pos h12]

/-- R75: slots 0..7 are the key words, in a write. -/
@[simp] theorem decodeWrite_keySlot (k : Fin 8) (v : Word64) :
    decodeWrite (0#1 ++ BitVec.ofFin (w := 3) k) v = .wrKey k v :=
  (decodeWrite_key (by revert k; decide) v).trans (by rw [keyIndex_keySlot])

/-- R75: slots 8..11 are the IV words, in a write. -/
@[simp] theorem decodeWrite_ivSlot (k : Fin 4) (v : Word64) :
    decodeWrite (0b10#2 ++ BitVec.ofFin (w := 2) k) v = .wrIv k v :=
  (decodeWrite_iv (by revert k; decide) (by revert k; decide) v).trans (by rw [ivIndex_ivSlot])

/-- R75: slots 0..7 are the key words, in a read. -/
@[simp] theorem decodeRead_keySlot (k : Fin 8) : decodeRead (0#1 ++ BitVec.ofFin (w := 3) k) = .rdKey k := by
  revert k; decide

/-- R75: slots 8..11 are the IV words, in a read. -/
@[simp] theorem decodeRead_ivSlot (k : Fin 4) : decodeRead (0b10#2 ++ BitVec.ofFin (w := 2) k) = .rdIv k := by
  revert k; decide

/-- R71: a header with D = 1 is a write of its slot. -/
@[simp] theorem decodeTransaction_mkHeader_write (idx : BitVec 4) (v : Word64) :
    decodeTransaction ⟨mkHeader true idx, v⟩ = decodeWrite idx v := by
  rw [decodeTransaction, headerIsWrite_mkHeader, if_pos rfl, headerIdx_mkHeader]

/-- R71: a header with D = 0 is a read of its slot. -/
@[simp] theorem decodeTransaction_mkHeader_read (idx : BitVec 4) (v : Word64) :
    decodeTransaction ⟨mkHeader false idx, v⟩ = decodeRead idx := by
  rw [decodeTransaction, headerIsWrite_mkHeader, if_neg Bool.false_ne_true, headerIdx_mkHeader]

/-! ## Command words -/

/-- R72: CMD[23:8] is IVLEN above KLEN. -/
theorem cmdLens_eq_append (v : Word64) : cmdLens v = cmdIvlen v ++ cmdKlen v :=
  (BitVec.extractLsb'_append_extractLsb'_eq_extractLsb' (x := v) (start₁ := 8) (len₁ := 8) (len₂ := 8) rfl).symm

/-- R73: CMD[23:8] of an assembled command word. -/
@[simp] theorem cmdLens_mkCmd (o k l : BitVec 8) : cmdLens (mkCmd o k l) = l ++ k := by
  rw [cmdLens_eq_append, cmdIvlen_mkCmd, cmdKlen_mkCmd]

/-- R76: the three kinds of reserved word, by the fields of a command word. -/
theorem reservedWord_iff (w : Word64) :
    reservedWord w = true ↔
      4 ≤ (cmdOpc w).toNat ∨ cmdRsv w ≠ 0 ∨ (cmdOpc w = 0 ∨ cmdOpc w = 2 ∨ cmdOpc w = 3) ∧ cmdLens w ≠ 0 := by
  simp [reservedWord, cmdOpc, cmdRsv, cmdLens, or_assoc]

/-- R76, R179: the decoder reads exactly the reserved words as reserved. -/
theorem decodeCmd_eq_reserved_iff (w : Word64) : decodeCmd w = .reserved w ↔ reservedWord w = true := by
  rw [reservedWord_iff]
  unfold decodeCmd
  split_ifs with hrsv h0 hlens0 h1 h2 hlens2 h3 hlens3
  · exact iff_of_true rfl (.inr (.inl hrsv))
  · exact iff_of_true rfl (.inr (.inr ⟨.inl h0, hlens0⟩))
  · exact iff_of_false nofun (by simp [h0, not_not.1 hrsv, not_not.1 hlens0])
  · exact iff_of_false nofun (by simp [h1, not_not.1 hrsv])
  · exact iff_of_true rfl (.inr (.inr ⟨.inr (.inl h2), hlens2⟩))
  · exact iff_of_false nofun (by simp [h2, not_not.1 hrsv, not_not.1 hlens2])
  · exact iff_of_true rfl (.inr (.inr ⟨.inr (.inr h3), hlens3⟩))
  · exact iff_of_false nofun (by simp [h3, not_not.1 hrsv, not_not.1 hlens3])
  · have hopc : 4 ≤ (cmdOpc w).toNat := by bv_omega
    exact iff_of_true rfl (.inl hopc)

/-- R73, R75: a command is read back from its command word. -/
theorem decodeCmd_encodeCmd {i : Instr} (hwf : i.wellFormed = true) (hf : i.format = .cmd) :
    decodeCmd (encodeCmd i) = i := by
  cases i with
  | nop => simp [encodeCmd, decodeCmd]
  | setup klen ivlen => simp [encodeCmd, decodeCmd]
  | zeroize => simp [encodeCmd, decodeCmd]
  | clrerr => simp [encodeCmd, decodeCmd]
  | reserved w => exact (decodeCmd_eq_reserved_iff w).2 hwf
  | _ => cases hf

/-! ## The transaction that issues an instruction -/

/-- R75: a host transaction is read back from its own encoding. -/
theorem decodeTransaction_encodeTransaction_ht {i : Instr} (hf : i.format = .ht) :
    decodeTransaction (encodeTransaction i) = i := by
  cases i with
  | wrKey k v => simp [encodeTransaction]
  | wrIv k v => simp [encodeTransaction]
  | wrCmd v => simp [encodeTransaction, decodeWrite]
  | wrStatus v => simp [encodeTransaction, decodeWrite]
  | wrKsout v => simp [encodeTransaction, decodeWrite]
  | wrRsv15 v => simp [encodeTransaction, decodeWrite]
  | rdKey k => simp [encodeTransaction]
  | rdIv k => simp [encodeTransaction]
  | rdCmd | rdStatus | rdKsout | rdRsv15 => rfl
  | nop | setup _ _ | zeroize | clrerr | reserved _ => cases hf

/-- R15, R174: a command is issued by the WR CMD that carries its word. -/
theorem decodeTransaction_encodeTransaction_cmd {i : Instr} (hf : i.format = .cmd) :
    decodeTransaction (encodeTransaction i) = .wrCmd (encodeCmd i) := by
  have henc : encodeTransaction i = encodeTransaction (.wrCmd (encodeCmd i)) := by
    cases i with
    | nop | setup _ _ | zeroize | clrerr | reserved _ => rfl
    | _ => cases hf
  rw [henc]
  exact decodeTransaction_encodeTransaction_ht rfl

end Sys2Proof

/-! A WR CMD and the command it carries are one transaction (R174, R179), and what a step on a transaction is. -/

namespace Sys2Proof.Machine

/-- R174: a WR CMD runs the command that its word decodes to. -/
theorem exec_wrCmd (v : Word64) (s : State) : exec (.wrCmd v) s = exec (decodeCmd v) s := by
  have hexec : exec (.wrCmd v) s = executeCmd v s := rfl
  rw [hexec]
  rcases executeCmd_cases v s with ⟨hd, he⟩ | ⟨hd, he⟩ | ⟨hd, he⟩ | ⟨hd, he⟩ | ⟨hd, he⟩ <;> rw [hd, he] <;> rfl

/-- R179: no command word decodes to a WR CMD, so a decoded command is its own effect. -/
theorem effectOf_decodeCmd (v : Word64) : effectOf (decodeCmd v) = decodeCmd v := by
  rcases decodeCmd_cases v with hd | hd | hd | hd | hd <;> rw [hd] <;> rfl

/-- The host's check and its record see an instruction only through its effect. -/
theorem transact_congr {i j : Instr} {s : State} (heff : effectOf i = effectOf j) (hexec : exec i s = exec j s) :
    transact i s = transact j s := by
  have hvar : setupVariant i = setupVariant j := by rw [setupVariant, setupVariant, heff]
  have hfault : s.hostFault i = s.hostFault j := by
    rw [State.hostFault, State.hostFault, Staged.tooEarly, Staged.tooEarly, hvar]
  have hafter : ∀ t : State, t.hostAfter i = t.hostAfter j := fun t => by
    rw [State.hostAfter_eq, State.hostAfter_eq, hvar, Staged.after, Staged.after, heff]
  unfold transact
  rw [hfault, hexec]
  cases exec j s with
  | next t => simp [hostObserve, hafter]
  | fault r => rfl
  | refused r => rfl

/-- R174: the transaction of a WR CMD is that of the command it carries. -/
theorem transact_wrCmd (v : Word64) (s : State) : transact (.wrCmd v) s = transact (decodeCmd v) s :=
  transact_congr (effectOf_decodeCmd v).symm (exec_wrCmd v s)

/-- R15, R174: what issues a well-formed instruction is, on the port, a transaction of that instruction. -/
theorem transact_issued {i : Instr} (hwf : i.wellFormed = true) (s : State) :
    transact (decodeTransaction (encodeTransaction i)) s = transact i s := by
  cases hf : i.format with
  | ht => rw [decodeTransaction_encodeTransaction_ht hf]
  | cmd => rw [decodeTransaction_encodeTransaction_cmd hf, transact_wrCmd, decodeCmd_encodeCmd hwf hf]

/-- A transaction runs its instruction on the state with that transaction taken from the program (R170). -/
theorem step_transaction {s : State} {t : Transaction} {rest : List HostEvent}
    (h : s.host.program = .transaction t :: rest) :
    step s = transact (decodeTransaction t) (s.setProgram rest) := by
  simp only [step, fetch_cons h]

end Sys2Proof.Machine

/-! The statements of the family 00_scope.md. -/

namespace Sys2Proof.Proofs

open Sys2Proof.Machine Sys2Proof.Claims

/-- The statements' name for the state with another program. -/
theorem withProgram_eq_setProgram (s : State) (p : List HostEvent) : withProgram s p = s.setProgram p := rfl

/-- Settles O41: the port decodes a host transaction to itself and a command to the WR CMD that carries its word, and
that WR CMD is the same transaction as the command. -/
theorem stepRunsEveryIssuedInstruction : Obligations.StepRunsEveryIssuedInstruction := by
  intro s i rest hwf hprog
  rw [withProgram_eq_setProgram, step_transaction hprog, transact_issued hwf]

/-- Settles O47, from the two laws of a write to the buffer: it keeps the canonical form, and what every address reads
as after it. -/
theorem hostBufferReadsWhatWasWritten : Obligations.HostBufferReadsWhatWasWritten := by
  intro m a b hm
  have hread := Memory.readByte_writeByte hm a b
  refine ⟨Memory.writeByte_wf hm a b, ?_, fun x hx => ?_⟩
  · rw [hread, if_pos rfl]
  · rw [hread, if_neg hx]

end Sys2Proof.Proofs
end

section
/-! SUPPORT. The invariant (10_state.md R23, R27, R36; 60_exceptions.md R221): one rule per state operation, then what
the block, a transaction, the driver and reset do to it. -/

namespace Sys2Proof.Machine

/-! ## Reset -/

@[simp] theorem State.reset_inst : State.reset.inst = .zero := rfl
@[simp] theorem State.reset_key : State.reset.key = Vector.replicate 8 0 := rfl
@[simp] theorem State.reset_iv : State.reset.iv = Vector.replicate 4 0 := rfl

/-- R36: S[0..15] when erased. -/
@[simp] theorem CipherInstance.zero_lane (n : Fin 16) : CipherInstance.zero.lane n = 0 := rget_replicate 0 n

/-- R36: G[0..15] when erased. -/
@[simp] theorem CipherInstance.zero_gamma (n : Fin 16) : CipherInstance.zero.gamma n = 0 := rget_replicate 0 n

/-! ## What the invariant depends on -/

/-- The invariant sees S, R, G, cur, READY, VARIANT, ERR and the data buffer, and nothing else of the state. -/
theorem State.Inv.congr {s t : State} (hs : s.Inv) (hinst : t.inst = s.inst) (hready : t.ready = s.ready)
    (hvariant : t.variant = s.variant) (herr : t.err = s.err) (hmem : t.host.mem = s.host.mem) : t.Inv where
  cursor := by rw [hinst]; exact hs.cursor
  variant := by rw [hready, hvariant]; exact hs.variant
  cleared := by rw [hready, hinst]; exact hs.cleared
  error := by rw [herr]; exact hs.error
  memory := by rw [hmem]; exact hs.memory

/-- While READY = 1, the invariant asks of S, R, G and cur only that cur is below 16 (R23). -/
theorem State.Inv.of_ready {s t : State} (hs : s.Inv) (hready : t.ready = true) (hcur : t.inst.cur.val < 16)
    (herr : t.err = s.err) (hmem : t.host.mem = s.host.mem) : t.Inv where
  cursor := hcur
  variant h := by rw [hready] at h; cases h
  cleared h := by rw [hready] at h; cases h
  error := by rw [herr]; exact hs.error
  memory := by rw [hmem]; exact hs.memory

/-- S, R, G and cur at 0 with VARIANT 0 are what the invariant asks for while READY = 0 (R27, R182). -/
theorem State.Inv.of_zero {t : State} (hinst : t.inst = .zero) (hvariant : t.variant = .v256)
    (herr : t.err = 0 ∨ t.err = 1 ∨ t.err = 3 ∨ t.err = 4) (hmem : t.host.mem.wf = true) : t.Inv where
  cursor := by rw [hinst]; decide
  variant _ := hvariant
  cleared _ := hinst
  error := herr
  memory := hmem

/-! ## One rule per operation -/

section
variable {s : State} (hs : s.Inv)
include hs

theorem State.Inv.setKey (i : Fin 8) (v : Word64) : (s.setKey i v).Inv := hs.congr rfl rfl rfl rfl rfl
theorem State.Inv.setIv (i : Fin 4) (v : Word64) : (s.setIv i v).Inv := hs.congr rfl rfl rfl rfl rfl
theorem State.Inv.clearStaging : s.clearStaging.Inv := hs.congr rfl rfl rfl rfl rfl
theorem State.Inv.returns (v : Word64) : (s.returns v).Inv := hs.congr rfl rfl rfl rfl rfl
theorem State.Inv.setProgram (p : List HostEvent) : (s.setProgram p).Inv := hs.congr rfl rfl rfl rfl rfl
theorem State.Inv.issueFirst (es : List HostEvent) : (s.issueFirst es).Inv := hs.setProgram _
theorem State.Inv.setTb (tb : Vector Byte 128) : (s.setTb tb).Inv := hs.congr rfl rfl rfl rfl rfl
theorem State.Inv.setTp (tp : Fin 129) : (s.setTp tp).Inv := hs.congr rfl rfl rfl rfl rfl
theorem State.Inv.setReport (r : DriverReport) : (s.setReport r).Inv := hs.congr rfl rfl rfl rfl rfl

/-- What the host keeps of its transaction is no part of the invariant. -/
theorem State.Inv.hostAfter (i : Instr) : (s.hostAfter i).Inv :=
  hs.congr (by simp) (by simp) (by simp) (by simp) (by simp)

/-- The data buffer has to stay canonical. -/
theorem State.Inv.setMem {m : Memory} (hm : m.wf = true) : (s.setMem m).Inv where
  cursor := hs.cursor
  variant := hs.variant
  cleared := hs.cleared
  error := hs.error
  memory := hm

/-- R183: ERR 0 is a value that the block writes. -/
theorem State.Inv.clearErr : s.clearErr.Inv where
  cursor := hs.cursor
  variant := hs.variant
  cleared := hs.cleared
  error := .inl rfl
  memory := hs.memory

/-- R221, R223: every error kind but UnsupportedPlatform, which is never raised, has a code that ERR may hold. -/
theorem State.Inv.raise {e : ErrorKind} (he : e ≠ .unsupportedPlatform) : (s.raise e).Inv := by
  by_cases herr : s.err = 0
  · rw [State.raise_first herr]
    refine ⟨hs.cursor, hs.variant, hs.cleared, ?_, hs.memory⟩
    cases e with
    | invalidLength => exact .inr (.inl rfl)
    | unsupportedPlatform => exact absurd rfl he
    | notReady => exact .inr (.inr (.inl rfl))
    | illegalCommand => exact .inr (.inr (.inr rfl))
  · rw [State.raise_recorded herr]
    exact hs

/-- R182: ZEROIZE puts S, R, G, cur, READY and VARIANT at 0 and leaves ERR and the data buffer as they are. -/
theorem State.Inv.zeroize : (((s.setInst .zero).setReady false .v256).clearStaging).Inv :=
  .of_zero rfl rfl hs.error hs.memory

/-- R250: reset needs nothing of the block before it. -/
theorem State.Inv.resetBlock : s.resetBlock.Inv := .of_zero rfl rfl (.inl rfl) hs.memory

/-- R181: SETUP constructs with cur 0, or raises InvalidLength and keeps S, R, G and cur. -/
theorem State.Inv.setupUnder (c : Config) (klen ivlen : BitVec 8) : (setupUnder c klen ivlen s).Inv := by
  rcases setupUnder_cases c klen ivlen s with ⟨_, heq⟩ | ⟨v, _, heq⟩ <;> rw [heq]
  · exact (hs.raise (by decide)).clearStaging
  · exact hs.of_ready rfl (by simp) rfl rfl

/-- R201: a byte of the data buffer is written in canonical form. -/
theorem State.Inv.xorByte (buf : Nat) (tp : Fin 128) : (xorByte buf tp s).Inv :=
  (hs.setMem (Memory.writeByte_wf hs.memory _ _)).setTp _

end

/-- R23, R151: the refill comes in the same transaction, so no read leaves cur at 16. -/
theorem takeWord_cur_lt {c : Config} {x y : CipherInstance} {w : Word64} (h : takeWord c x = some (w, y)) :
    y.cur.val < 16 := by
  rcases takeWord_cases c x with ⟨_, heq⟩ | ⟨hcur, heq⟩ | ⟨_, heq⟩ <;> rw [heq] at h <;> cases h
  · show x.cur.val + 1 < 16
    omega
  · simp

/-! ## Instructions, the driver and steps -/

/-- The block's effect of an instruction keeps the invariant (R170). -/
theorem exec_keeps_inv {i : Instr} {s t : State} (hs : s.Inv) (h : exec i s = .next t) : t.Inv := by
  rcases exec_next_cases h with rfl | ⟨k, v, _, rfl⟩ | ⟨k, v, _, rfl⟩ | ⟨_, v, rfl⟩ | ⟨_, _, rfl⟩ |
    ⟨_, hready, w, y, htake, rfl⟩ | ⟨a, b, _, rfl⟩ | ⟨_, rfl⟩ | ⟨_, rfl⟩ | ⟨w, _, rfl⟩
  · exact hs
  · exact hs.setKey k v
  · exact hs.setIv k v
  · exact hs.returns v
  · exact (hs.raise (by decide)).returns 0
  · exact hs.of_ready hready (takeWord_cur_lt htake) rfl rfl
  · exact hs.setupUnder _ a b
  · exact hs.zeroize
  · exact hs.clearErr
  · exact hs.raise (by decide)

/-- A transaction that completes keeps the invariant. -/
theorem transact_keeps_inv {i : Instr} {s t : State} (hs : s.Inv) (h : transact i s = .next t) : t.Inv := by
  obtain ⟨_, u, hexec, rfl⟩ := transact_next h
  exact (exec_keeps_inv hs hexec).hostAfter i

/-- An action of the driver keeps the invariant: it changes nothing of the block (R200). -/
theorem driverStep_keeps_inv {op : DriverOp} {s t : State} (hs : s.Inv) (h : driverStep op s = .next t) : t.Inv := by
  rcases driverStep_next_cases h with ⟨rfl, _⟩ | ⟨j, w, _, rfl⟩ | ⟨_, rfl⟩ | ⟨key, iv, _, _, _, rfl⟩ | ⟨_, _, rfl⟩ |
    ⟨buf, n, _, rfl⟩ | ⟨buf, n, tp, _, rfl⟩ | ⟨r, _, rfl⟩
  · exact hs
  · exact hs.setTb _
  · exact hs.setTp 0
  · exact hs.issueFirst _
  · exact (hs.setTp 128).setReport _
  · exact hs.issueFirst _
  · exact (hs.xorByte buf tp).issueFirst _
  · exact ((hs.setReport r).setTb _).issueFirst _

/-- Every kind of event keeps the invariant. -/
theorem step_keeps_inv {s t : State} (hs : s.Inv) (h : step s = .next t) : t.Inv := by
  rcases step_cases s with ⟨_, heq⟩ | ⟨_, rest, _, heq⟩ | ⟨rest, _, heq⟩ | ⟨_, rest, _, heq⟩ <;> rw [heq] at h
  · cases h
    exact hs
  · exact transact_keeps_inv (hs.setProgram rest) h
  · cases h
    exact (hs.setProgram rest).resetBlock
  · exact driverStep_keeps_inv (hs.setProgram rest) h

/-- The state after reset meets the invariant (R36). -/
theorem State.reset_inv : State.reset.Inv := .of_zero rfl rfl (.inl rfl) rfl

/-- After reset every staging register holds 0, written or not (R36). -/
theorem State.reset_stagingInv : State.reset.StagingInv where
  key i _ := by simp
  iv i _ := by simp

/-! ## SETUP with invalid lengths -/

/-- R122: SETUP with invalid lengths raises InvalidLength and clears the staging registers. -/
theorem setupUnder_of_invalid {klen ivlen : BitVec 8} (h : variantOfLengths klen ivlen = none) (c : Config)
    (s : State) : setupUnder c klen ivlen s = (s.raise .invalidLength).clearStaging := by
  rw [setupUnder, h]

end Sys2Proof.Machine

/-! The statements of the family 10_state.md. -/

namespace Sys2Proof.Proofs

open Sys2Proof.Machine Sys2Proof.Claims

/-- Settles O45, event by event: a transaction by the cases of its instruction, reset, the driver by its actions. -/
theorem stepKeepsTheInvariant : Obligations.StepKeepsTheInvariant := fun _ _ => step_keeps_inv

/-- Settles O21: of all that an instruction can do, only the word taken by RD KSOUT, a successful SETUP and ZEROIZE
touch S, R, G and cur, and the last two also READY and VARIANT. -/
theorem onlySetupZeroizeAndKeystreamReadsChangeTheInstance :
    Obligations.OnlySetupZeroizeAndKeystreamReadsChangeTheInstance := by
  rintro i s t hexec ⟨hsetup, hzeroize⟩
  rcases exec_next_cases hexec with rfl | ⟨_, _, _, rfl⟩ | ⟨_, _, _, rfl⟩ | ⟨_, _, rfl⟩ | ⟨_, _, rfl⟩ |
    ⟨hks, _, _, _, _, rfl⟩ | ⟨a, b, heff, rfl⟩ | ⟨heff, _⟩ | ⟨_, rfl⟩ | ⟨_, _, rfl⟩
  · simp
  · simp
  · simp
  · simp
  · simp
  · exact ⟨rfl, rfl, fun hne => absurd hks hne⟩
  · simp [setupUnder_of_invalid (hsetup a b heff)]
  · exact absurd heff hzeroize
  · simp
  · simp

/-- Settles O22: of all that an instruction can do, only WR KEYi, SETUP and ZEROIZE touch KEY, and only WR IVi, SETUP
and ZEROIZE touch IV. -/
theorem onlyWritesSetupAndZeroizeChangeStaging : Obligations.OnlyWritesSetupAndZeroizeChangeStaging := by
  intro i s t hexec hsetup hzeroize
  rcases exec_next_cases hexec with rfl | ⟨k, v, hkey, rfl⟩ | ⟨k, v, hiv, rfl⟩ | ⟨_, _, rfl⟩ | ⟨_, _, rfl⟩ |
    ⟨_, _, _, _, _, rfl⟩ | ⟨a, b, heff, _⟩ | ⟨heff, _⟩ | ⟨_, rfl⟩ | ⟨_, _, rfl⟩
  · simp
  · exact ⟨fun hne => absurd hkey (hne k v), fun _ => rfl⟩
  · exact ⟨fun _ => rfl, fun hne => absurd hiv (hne k v)⟩
  · simp
  · simp
  · simp
  · exact absurd heff (hsetup a b)
  · exact absurd heff hzeroize
  · simp
  · simp

/-- Settles O42, register by register from the table of R36. -/
theorem resetValues : Obligations.ResetValues := by
  refine ⟨fun n => ?_, rfl, rfl, rfl, fun i => ?_, fun i => ?_, rfl, rfl, rfl⟩
  · simp
  · simp
  · simp

/-- Settles O44: each of the three invariants at reset, where the host's program is empty. -/
theorem resetMeetsTheInvariant : Obligations.ResetMeetsTheInvariant :=
  ⟨State.reset_inv, State.reset_stagingInv, rfl⟩

end Sys2Proof.Proofs
end

section
/-! SUPPORT. What the block's effect of an instruction does to the host (20_memory.md R51), and that it depends on KEY
and IV only in a successful SETUP (20_memory.md R61): one rule per state operation, then the instructions. -/

namespace Sys2Proof.Machine

/-! ## The host -/

/-- SETUP under any lengths leaves the host alone (R181). -/
@[simp] theorem setupUnder_host (c : Config) (klen ivlen : BitVec 8) (s : State) :
    (setupUnder c klen ivlen s).host = s.host := by
  rcases setupUnder_cases c klen ivlen s with ⟨_, heq⟩ | ⟨_, _, heq⟩ <;> simp [heq]

/-- All that an instruction can do to the host: nothing, or one returned word (R51, R71). -/
theorem exec_host_cases {i : Instr} {s t : State} (h : exec i s = .next t) :
    t.host = s.host ∨ ∃ v, t.host = { s.host with returned := v :: s.host.returned } := by
  rcases exec_next_cases h with rfl | ⟨_, _, _, rfl⟩ | ⟨_, _, _, rfl⟩ | ⟨_, v, rfl⟩ | ⟨_, _, rfl⟩ |
    ⟨_, _, w, _, _, rfl⟩ | ⟨_, _, _, rfl⟩ | ⟨_, rfl⟩ | ⟨_, rfl⟩ | ⟨_, _, rfl⟩
  · exact .inl rfl
  · exact .inl rfl
  · exact .inl rfl
  · exact .inr ⟨v, rfl⟩
  · exact .inr ⟨0, by simp [State.returns]⟩
  · exact .inr ⟨w, rfl⟩
  · exact .inl (setupUnder_host ..)
  · exact .inl rfl
  · exact .inl rfl
  · exact .inl (State.raise_host ..)

/-! ## Other staged words -/

/-- The state with other words in KEY and IV. -/
def State.withStaging (s : State) (key : Vector Word64 8) (iv : Vector Word64 4) : State :=
  { s with key := key, iv := iv }

section
variable (s : State) (key : Vector Word64 8) (iv : Vector Word64 4)

@[simp] theorem State.withStaging_inst : (s.withStaging key iv).inst = s.inst := rfl
@[simp] theorem State.withStaging_key : (s.withStaging key iv).key = key := rfl
@[simp] theorem State.withStaging_iv : (s.withStaging key iv).iv = iv := rfl
@[simp] theorem State.withStaging_ready : (s.withStaging key iv).ready = s.ready := rfl
@[simp] theorem State.withStaging_variant : (s.withStaging key iv).variant = s.variant := rfl
@[simp] theorem State.withStaging_err : (s.withStaging key iv).err = s.err := rfl
@[simp] theorem State.withStaging_host : (s.withStaging key iv).host = s.host := rfl

theorem State.returns_withStaging (w : Word64) :
    (s.withStaging key iv).returns w = (s.returns w).withStaging key iv := rfl
theorem State.setInst_withStaging (x : CipherInstance) :
    (s.withStaging key iv).setInst x = (s.setInst x).withStaging key iv := rfl

/-- R226: raising an error neither reads nor writes KEY and IV. -/
theorem State.raise_withStaging (e : ErrorKind) :
    (s.withStaging key iv).raise e = (s.raise e).withStaging key iv := by
  rw [State.raise_eq, State.raise_eq]
  rfl

/-- R24, R25: clearing forgets what was staged. -/
theorem State.clearStaging_withStaging : (s.withStaging key iv).clearStaging = s.clearStaging := rfl

end

/-- R150: NEXT_WORD neither reads nor writes KEY and IV. -/
theorem nextWord_withStaging {c : Config} {s t : State} (h : nextWord c s = .next t) (key : Vector Word64 8)
    (iv : Vector Word64 4) : nextWord c (s.withStaging key iv) = .next (t.withStaging key iv) := by
  rcases nextWord_cases c s with ⟨hready, heq⟩ | ⟨_, _, heq⟩ | ⟨hready, w, y, htake, heq⟩ <;> rw [heq] at h <;> cases h
  · simp [nextWord, hready, State.raise_withStaging, State.returns_withStaging]
  · simp [nextWord, hready, htake, State.setInst_withStaging, State.returns_withStaging]

/-! ## Instructions on other staged words -/

/-- R181: SETUP with valid lengths constructs S, R and G from KEY and IV. -/
theorem setupUnder_of_valid {klen ivlen : BitVec 8} {v : Variant} (h : variantOfLengths klen ivlen = some v)
    (c : Config) (s : State) :
    setupUnder c klen ivlen s = ((s.setInst (construct c v s.key s.iv s.inst)).setReady true v).clearStaging := by
  rw [setupUnder, h]

/-- R122: SETUP with invalid lengths answers the same state whatever was staged. -/
theorem setupUnder_withStaging_of_invalid {klen ivlen : BitVec 8} (h : variantOfLengths klen ivlen = none)
    (c : Config) (s : State) (key : Vector Word64 8) (iv : Vector Word64 4) :
    setupUnder c klen ivlen (s.withStaging key iv) = setupUnder c klen ivlen s := by
  rw [setupUnder_of_invalid h, setupUnder_of_invalid h, State.raise_withStaging, State.clearStaging_withStaging]

/-- An instruction runs as the command it carries, if it carries one (R174). -/
theorem exec_effectOf (i : Instr) (s : State) : exec (effectOf i) s = exec i s := by
  cases i with
  | wrCmd v => exact (exec_wrCmd v s).symm
  | _ => rfl

/-- A successful SETUP constructs from KEY and IV, sets READY and clears what was staged (R181). -/
theorem exec_of_setupVariant {i : Instr} {v : Variant} (h : setupVariant i = some v) (s : State) :
    exec i s =
      .next ((s.setInst (construct Config.active v s.key s.iv s.inst)).setReady true v).clearStaging := by
  obtain ⟨a, b, heff, hlengths⟩ := setupVariant_eq_some.1 h
  rw [← exec_effectOf, heff, ← setupUnder_of_valid hlengths]
  rfl

/-- A command that is no successful SETUP: the states answered for other staged words differ at most in KEY and IV. -/
theorem exec_command_withStaging {i : Instr} (hf : i.format = .cmd) (hi : setupVariant i = none) {s t : State}
    (h : exec i s = .next t) (key : Vector Word64 8) (iv : Vector Word64 4) :
    ∃ key' iv', exec i (s.withStaging key iv) = .next (t.withStaging key' iv') := by
  cases i with
  | nop => cases h; exact ⟨key, iv, rfl⟩
  | clrerr => cases h; exact ⟨key, iv, rfl⟩
  | reserved w => cases h; exact ⟨key, iv, congrArg _ (State.raise_withStaging ..)⟩
  | zeroize =>
    have hsame : exec .zeroize (s.withStaging key iv) = exec .zeroize s := rfl
    exact ⟨t.key, t.iv, hsame.trans h⟩
  | setup a b =>
    have hsame : exec (.setup a b) (s.withStaging key iv) = exec (.setup a b) s :=
      congrArg Host.Outcome.next (setupUnder_withStaging_of_invalid hi ..)
    exact ⟨t.key, t.iv, hsame.trans h⟩
  | _ => cases hf

/-- R75: a command word decodes to a command. -/
theorem decodeCmd_format (v : Word64) : (decodeCmd v).format = .cmd := by
  rcases decodeCmd_cases v with hd | hd | hd | hd | hd <;> rw [hd] <;> rfl

/-- R61: an instruction that is no successful SETUP: the states answered for other staged words differ at most in KEY
and IV. -/
theorem exec_withStaging {i : Instr} (hi : setupVariant i = none) {s t : State} (h : exec i s = .next t)
    (key : Vector Word64 8) (iv : Vector Word64 4) :
    ∃ key' iv', exec i (s.withStaging key iv) = .next (t.withStaging key' iv') := by
  cases i with
  | wrKey k v => cases h; exact ⟨rset key k v, iv, rfl⟩
  | wrIv k v => cases h; exact ⟨key, rset iv k v, rfl⟩
  | wrCmd v =>
    have hdecoded : setupVariant (decodeCmd v) = none := by
      rw [← hi, setupVariant, setupVariant, effectOf_decodeCmd]
      rfl
    rw [exec_wrCmd] at h ⊢
    exact exec_command_withStaging (decodeCmd_format v) hdecoded h key iv
  | wrStatus _ | wrKsout _ | wrRsv15 _ => cases h; exact ⟨key, iv, rfl⟩
  | rdKey _ | rdIv _ | rdCmd | rdStatus | rdRsv15 => cases h; exact ⟨key, iv, rfl⟩
  | rdKsout => exact ⟨key, iv, nextWord_withStaging h key iv⟩
  | nop | setup _ _ | zeroize | clrerr | reserved _ => exact exec_command_withStaging rfl hi h key iv

/-- A successful SETUP does not keep the old S, R and G. -/
theorem setupVariant_of_keepsInstance {i : Instr} (h : Claims.keepsInstance i) : setupVariant i = none := by
  obtain ⟨hsetup, _⟩ := h
  refine Option.eq_none_iff_forall_ne_some.2 fun v hv => ?_
  obtain ⟨a, b, heff, hlengths⟩ := setupVariant_eq_some.1 hv
  rw [hsetup a b heff] at hlengths
  cases hlengths

end Sys2Proof.Machine

/-! The statements of the family 20_memory.md. -/

namespace Sys2Proof.Proofs

open Sys2Proof.Machine Sys2Proof.Claims

/-- Settles O23: an instruction leaves the host alone or returns one word to it. -/
theorem blockEffectLeavesTheHostAlone : Obligations.BlockEffectLeavesTheHostAlone := by
  intro i s t hexec
  rcases exec_host_cases hexec with hhost | ⟨v, hhost⟩ <;> rw [hhost]
  · exact ⟨fun _ => rfl, rfl, .inl rfl⟩
  · exact ⟨fun _ => rfl, rfl, .inr ⟨v, rfl⟩⟩

/-- Settles O24: only a successful SETUP reads KEY and IV, and it touches neither the host nor ERR; after every other
instruction the two states still differ at most in KEY and IV. -/
theorem stagedMaterialNeverReachesTheHost : Obligations.StagedMaterialNeverReachesTheHost := by
  intro i s₁ s₂ t₁ hsame hexec
  have hs₂ : s₂ = s₁.withStaging s₂.key s₂.iv := hsame
  rw [hs₂]
  cases hi : setupVariant i with
  | none =>
    obtain ⟨key, iv, hexec₂⟩ := exec_withStaging hi hexec s₂.key s₂.iv
    exact ⟨_, hexec₂, rfl, rfl, fun _ => rfl⟩
  | some v =>
    rw [exec_of_setupVariant hi] at hexec
    cases hexec
    refine ⟨_, exec_of_setupVariant hi _, by simp, by simp, fun hkeeps => ?_⟩
    rw [setupVariant_of_keepsInstance hkeeps] at hi
    cases hi

end Sys2Proof.Proofs
end

section
/-! SUPPORT. The decoder and the encoder are inverse to each other, in both directions (30_encoding.md R71 to R76;
40_primitives.md R99, R100): bytes of a word, slots of a header, fields of a command word, then whole instructions. -/

namespace Sys2Proof

/-! ## Words as bytes -/

/-- R99: bit `r` of byte place `k` is that of the byte put there, if it is this one. -/
theorem getLsbD_bytePlace_add (b : Byte) {j : Nat} (hj : j < 8) (k : Nat) {r : Nat} (hr : r < 8) :
    (bytePlace b j).getLsbD (8 * k + r) = (decide (j = k) && b.getLsbD r) := by
  rw [getLsbD_bytePlace b hj]
  by_cases hjk : j = k
  · simp [hjk, hr]
  · have hout : ¬ (8 * j ≤ 8 * k + r ∧ 8 * k + r < 8 * j + 8) := by omega
    simp [hjk, hout]

/-- R99: bit `r` of byte `k` of a word. -/
theorem getLsbD_wordLe (b : Vector Byte 8) (k : Fin 8) {r : Nat} (hr : r < 8) :
    (wordLe b).getLsbD (8 * k.val + r) = (b.get k).getLsbD r := by
  simp only [wordLe, BitVec.getLsbD_or, getLsbD_bytePlace_add _ _ _ hr, Nat.reduceLT]
  match k with
  | 0 | 1 | 2 | 3 | 4 | 5 | 6 | 7 => simp

/-- R99, R100: a word is read back from its bytes. -/
@[simp] theorem wordLe_bytesLe (w : Word64) : wordLe (bytesLe w) = w := by
  refine BitVec.eq_of_getLsbD_eq fun i hi => ?_
  have hsplit : 8 * (i / 8) + i % 8 = i := Nat.div_add_mod i 8
  have hbit := getLsbD_wordLe (bytesLe w) ⟨i / 8, by omega⟩ (Nat.mod_lt i (by decide : 0 < 8))
  rw [bytesLe_get, BitVec.getLsbD_extractLsb'] at hbit
  simpa [hsplit, Nat.mod_lt] using hbit

/-- R100, log 6: a command word is read back from its bytes. -/
theorem cmdOfBytes_bytesLe (w : Word64) : cmdOfBytes (bytesLe w).toList = .ok w :=
  congrArg Except.ok (wordLe_bytesLe w)

/-- Log 6: the header is the low five bits of its byte, and no bit above them is set. -/
theorem header_of_byte (h : BitVec 5) :
    (h.setWidth 8).extractLsb' 5 3 = 0 ∧ (h.setWidth 8).extractLsb' 0 5 = h := by
  revert h; decide

/-- R71, log 6: a transaction is read back from its bytes. -/
theorem transactionOfBytes_bytesOfTransaction (t : Transaction) :
    transactionOfBytes (bytesOfTransaction t) = .ok t := by
  obtain ⟨hhigh, hlow⟩ := header_of_byte t.header
  calc transactionOfBytes (bytesOfTransaction t)
      = if (t.header.setWidth 8).extractLsb' 5 3 ≠ 0 then .error .headerTooWide
        else .ok ⟨(t.header.setWidth 8).extractLsb' 0 5, wordLe (bytesLe t.data)⟩ := rfl
    _ = .ok t := by rw [if_neg (not_not.2 hhigh), hlow, wordLe_bytesLe]

/-- R75: the bytes of a transaction decode to its instruction. -/
theorem decode_bytesOfTransaction (t : Transaction) :
    decode .ht (bytesOfTransaction t) = .ok (decodeTransaction t) := by
  rw [decode, transactionOfBytes_bytesOfTransaction]
  rfl

/-- R75: the bytes of a command word decode to its command. -/
theorem decode_bytesLe (w : Word64) : decode .cmd (bytesLe w).toList = .ok (decodeCmd w) := by
  rw [decode, cmdOfBytes_bytesLe]
  rfl

/-! ## Headers -/

/-- R71: a header is `D IDX`. -/
theorem mkHeader_fields (h : BitVec 5) : mkHeader (headerIsWrite h) (headerIdx h) = h := by
  revert h; decide

/-- R75: the header patterns of the key words, `D 0iii`. -/
theorem keyHeader_eq_mkHeader (k : Fin 8) :
    0b10000 + BitVec.ofNat 5 k.val = mkHeader true (0#1 ++ BitVec.ofFin (w := 3) k) ∧
      BitVec.ofNat 5 k.val = mkHeader false (0#1 ++ BitVec.ofFin (w := 3) k) := by
  revert k; decide

/-- R75: the header patterns of the IV words, `D 10ii`. -/
theorem ivHeader_eq_mkHeader (k : Fin 4) :
    0b11000 + BitVec.ofNat 5 k.val = mkHeader true (0b10#2 ++ BitVec.ofFin (w := 2) k) ∧
      0b01000 + BitVec.ofNat 5 k.val = mkHeader false (0b10#2 ++ BitVec.ofFin (w := 2) k) := by
  revert k; decide

/-- R52, R75: the sixteen slots are the key words, the IV words, CMD, STATUS, KSOUT and RSV15. -/
theorem slot_cases (idx : BitVec 4) :
    (∃ k : Fin 8, idx = 0#1 ++ BitVec.ofFin (w := 3) k) ∨ (∃ k : Fin 4, idx = 0b10#2 ++ BitVec.ofFin (w := 2) k) ∨
      idx = 12 ∨ idx = 13 ∨ idx = 14 ∨ idx = 15 := by
  revert idx; decide

/-- R75: the encoding of a decoded write. -/
theorem encodeTransaction_decodeWrite (idx : BitVec 4) (v : Word64) :
    encodeTransaction (decodeWrite idx v) = ⟨mkHeader true idx, v⟩ := by
  rcases slot_cases idx with ⟨k, rfl⟩ | ⟨k, rfl⟩ | rfl | rfl | rfl | rfl
  · rw [decodeWrite_keySlot, encodeTransaction]
  · rw [decodeWrite_ivSlot, encodeTransaction]
  all_goals rfl

/-- R75: the encoding of a decoded read, its DATA 0 (log 7). -/
theorem encodeTransaction_decodeRead (idx : BitVec 4) :
    encodeTransaction (decodeRead idx) = ⟨mkHeader false idx, 0⟩ := by
  rcases slot_cases idx with ⟨k, rfl⟩ | ⟨k, rfl⟩ | rfl | rfl | rfl | rfl
  · rw [decodeRead_keySlot, encodeTransaction]
  · rw [decodeRead_ivSlot, encodeTransaction]
  all_goals rfl

/-- R75: the encoding of a decoded transaction is that transaction, for a read with DATA 0 (log 7). -/
theorem encodeTransaction_decodeTransaction (t : Transaction) :
    encodeTransaction (decodeTransaction t) = { t with data := if t.header.getLsbD 4 then t.data else 0 } := by
  have hheader := mkHeader_fields t.header
  change _ = Transaction.mk t.header (if headerIsWrite t.header then t.data else 0)
  rw [decodeTransaction]
  cases hw : headerIsWrite t.header with
  | true => rw [hw] at hheader; simp [encodeTransaction_decodeWrite, hheader]
  | false => rw [hw] at hheader; simp [encodeTransaction_decodeRead, hheader]

/-- R75: a transaction decodes to a host transaction. -/
theorem decodeTransaction_format (t : Transaction) : (decodeTransaction t).format = .ht := by
  unfold decodeTransaction decodeWrite decodeRead
  split_ifs <;> rfl

/-- Every host transaction is well formed: no HT header is reserved (R76). -/
theorem wellFormed_of_ht {i : Instr} (hf : i.format = .ht) : i.wellFormed = true := by
  cases i with
  | reserved w => cases hf
  | _ => rfl

/-! ## Command words -/

/-- R72: a command word is its four fields. -/
theorem fields_append (v : Word64) : cmdRsv v ++ cmdIvlen v ++ cmdKlen v ++ cmdOpc v = v := by
  have hivlen : cmdRsv v ++ cmdIvlen v = v.extractLsb' 16 48 :=
    BitVec.extractLsb'_append_extractLsb'_eq_extractLsb' rfl
  have hklen : v.extractLsb' 16 48 ++ cmdKlen v = v.extractLsb' 8 56 :=
    BitVec.extractLsb'_append_extractLsb'_eq_extractLsb' rfl
  have hopc : v.extractLsb' 8 56 ++ cmdOpc v = v.extractLsb' 0 64 :=
    BitVec.extractLsb'_append_extractLsb'_eq_extractLsb' rfl
  rw [hivlen, hklen, hopc, BitVec.extractLsb'_eq_self]

/-- R73: an assembled command word is its fields side by side, RSV 0. -/
theorem mkCmd_eq_append (opc klen ivlen : BitVec 8) : mkCmd opc klen ivlen = 0#40 ++ ivlen ++ klen ++ opc := by
  have hfields := fields_append (mkCmd opc klen ivlen)
  rw [cmdRsv_mkCmd, cmdIvlen_mkCmd, cmdKlen_mkCmd, cmdOpc_mkCmd] at hfields
  exact hfields.symm

/-- R73: a command word with RSV = 0 is assembled from its other fields. -/
theorem mkCmd_of_fields {v : Word64} {opc klen ivlen : BitVec 8} (hrsv : cmdRsv v = 0) (hopc : cmdOpc v = opc)
    (hklen : cmdKlen v = klen) (hivlen : cmdIvlen v = ivlen) : mkCmd opc klen ivlen = v := by
  have hfields := fields_append v
  rw [hrsv, hopc, hklen, hivlen] at hfields
  rw [mkCmd_eq_append]
  exact hfields

/-- R72: KLEN and IVLEN are the halves of CMD[23:8]. -/
theorem lengths_of_cmdLens {v : Word64} (h : cmdLens v = 0) : cmdKlen v = 0 ∧ cmdIvlen v = 0 := by
  rw [cmdLens_eq_append] at h
  exact ⟨BitVec.extractLsb'_append_eq_right.symm.trans (congrArg (BitVec.extractLsb' 0 8) h),
    BitVec.extractLsb'_append_eq_left.symm.trans (congrArg (BitVec.extractLsb' 8 8) h)⟩

/-- R75: a command word decodes to a command that encodes to it. -/
theorem encodeCmd_decodeCmd (v : Word64) : encodeCmd (decodeCmd v) = v := by
  have bare : ∀ {opc}, cmdOpc v = opc → ¬ cmdRsv v ≠ 0 → ¬ cmdLens v ≠ 0 → mkCmd opc 0 0 = v :=
    fun hopc hrsv hlens =>
      have ⟨hklen, hivlen⟩ := lengths_of_cmdLens (not_not.1 hlens)
      mkCmd_of_fields (not_not.1 hrsv) hopc hklen hivlen
  unfold decodeCmd
  split_ifs with hrsv h0 hlens h1 h2 hlens h3 hlens
  · rfl
  · rfl
  · exact bare h0 hrsv hlens
  · exact mkCmd_of_fields (not_not.1 hrsv) h1 rfl rfl
  · rfl
  · exact bare h2 hrsv hlens
  · rfl
  · exact bare h3 hrsv hlens
  · rfl

/-- R76: a command word decodes to a well-formed command: `reserved` only for a reserved word. -/
theorem decodeCmd_wellFormed (v : Word64) : (decodeCmd v).wellFormed = true := by
  rcases Machine.decodeCmd_cases v with hd | hd | hd | hd | hd
  · rw [hd]; exact (decodeCmd_eq_reserved_iff v).1 hd
  all_goals rw [hd]; rfl

/-- R179: opcode 0x01 with RSV = 0 is SETUP, whatever its lengths. -/
theorem decodeCmd_setup {v : Word64} (hopc : cmdOpc v = 1) (hrsv : cmdRsv v = 0) :
    decodeCmd v = .setup (cmdKlen v) (cmdIvlen v) := by
  simp [decodeCmd, hopc, hrsv]

/-! ## Instructions -/

/-- R15, R174: what issues a command is the WR CMD that carries its word. -/
theorem encodeTransaction_of_cmd {i : Instr} (hf : i.format = .cmd) :
    encodeTransaction i = ⟨0b11100, encodeCmd i⟩ := by
  cases i with
  | nop | setup _ _ | zeroize | clrerr | reserved _ => rfl
  | _ => cases hf

/-- R70: a host transaction is encoded as the bytes of its transaction. -/
theorem encode_of_ht {i : Instr} (hf : i.format = .ht) : encode i = bytesOfTransaction (encodeTransaction i) := by
  rw [encode, hf]

/-- R70: a command is encoded as the bytes of its command word. -/
theorem encode_of_cmd {i : Instr} (hf : i.format = .cmd) : encode i = (bytesLe (encodeCmd i)).toList := by
  rw [encode, hf]

end Sys2Proof

/-! The statements of the family 30_encoding.md. -/

namespace Sys2Proof.Proofs

open Sys2Proof.Machine Sys2Proof.Claims

/-- Settles O35: the bytes give back the transaction or the command word, and that the instruction. -/
theorem decodeAfterEncode : Obligations.DecodeAfterEncode := by
  intro i hwf
  cases hf : i.format with
  | ht => rw [encode_of_ht hf, decode_bytesOfTransaction, decodeTransaction_encodeTransaction_ht hf]
  | cmd => rw [encode_of_cmd hf, decode_bytesLe, decodeCmd_encodeCmd hwf hf]

/-- Settles O34: each header pattern is `D` and a slot, each command pattern an assembled word; and a word that is none
of the four patterns decodes to none of the four commands, since a decoded command encodes to its word again. -/
theorem encodingMapIsTheTable : Obligations.EncodingMapIsTheTable := by
  intro i j kl il v
  obtain ⟨hkeyWrite, hkeyRead⟩ := keyHeader_eq_mkHeader i
  obtain ⟨hivWrite, hivRead⟩ := ivHeader_eq_mkHeader j
  have row : ∀ i : Instr, i.format = .ht → decodeTransaction (encodeTransaction i) = i :=
    fun _ => decodeTransaction_encodeTransaction_ht
  rw [hkeyWrite, hkeyRead, hivWrite, hivRead]
  refine ⟨row (.wrKey i v) rfl, row (.wrIv j v) rfl, row (.wrCmd v) rfl, row (.wrStatus v) rfl, row (.wrKsout v) rfl,
    row (.wrRsv15 v) rfl, row (.rdKey i) rfl, row (.rdIv j) rfl, row .rdCmd rfl, row .rdStatus rfl, row .rdKsout rfl,
    row .rdRsv15 rfl, by decide, ?_, by decide, by decide, ?_⟩
  · rw [← mkCmd_eq_append]
    exact decodeCmd_encodeCmd (i := .setup kl il) rfl rfl
  · intro hnop hsetup hzeroize hclrerr
    have hword := encodeCmd_decodeCmd v
    rcases decodeCmd_cases v with hd | hd | hd | hd | hd
    · exact hd
    all_goals rw [hd, encodeCmd] at hword
    · exact absurd hword.symm hnop
    · exact absurd (hword.symm.trans (mkCmd_eq_append ..)) (hsetup _ _)
    · exact absurd hword.symm hzeroize
    · exact absurd hword.symm hclrerr

/-- Settles O36: decoding is total on both formats, and encoding is its inverse. -/
theorem everyWordDecodesToOneInstruction : Obligations.EveryWordDecodesToOneInstruction :=
  ⟨fun t => ⟨decodeTransaction t, decode_bytesOfTransaction t, wellFormed_of_ht (decodeTransaction_format t),
      decodeTransaction_format t, encodeTransaction_decodeTransaction t⟩,
    fun w => ⟨decodeCmd w, decode_bytesLe w, decodeCmd_wellFormed w, decodeCmd_format w, encodeCmd_decodeCmd w,
      by rw [encodeTransaction_of_cmd (decodeCmd_format w), encodeCmd_decodeCmd]⟩⟩

/-- Settles O37: the reserved words, by the fields of a command word, and SETUP with RSV = 0. -/
theorem reservedWordsAreTheThreeKinds : Obligations.ReservedWordsAreTheThreeKinds := fun w =>
  ⟨(decodeCmd_eq_reserved_iff w).trans (reservedWord_iff w), decodeCmd_setup⟩

/-- Settles O39: eight closed words, each decoded by evaluation. -/
theorem writtenOutWordsDecode : Obligations.WrittenOutWordsDecode := by
  unfold Obligations.WrittenOutWordsDecode
  decide

end Sys2Proof.Proofs
end

section
/-! SUPPORT. The little-endian codec as a bijection and as a sum (40_primitives.md R99, R100): the bytes of a word made
of bytes, and places that share no bit, so that their OR is their sum. -/

namespace Sys2Proof

/-- R100: the bytes of a word made of bytes are those bytes. -/
@[simp] theorem bytesLe_wordLe (b : Vector Byte 8) : bytesLe (wordLe b) = b := by
  refine Vector.ext fun k hk => BitVec.eq_of_getLsbD_eq fun r hr => ?_
  calc (bytesLe (wordLe b))[k].getLsbD r
      = ((bytesLe (wordLe b)).get ⟨k, hk⟩).getLsbD r := rfl
    _ = (wordLe b).getLsbD (8 * k + r) := by simp [bytesLe_get, hr]
    _ = b[k].getLsbD r := getLsbD_wordLe b ⟨k, hk⟩ hr

/-- R99: bytes in two different places share no bit. -/
theorem bytePlace_and_bytePlace (a b : Byte) {j k : Nat} (hj : j < 8) (hk : k < 8) (hjk : j ≠ k) :
    bytePlace a j &&& bytePlace b k = 0 := by
  refine BitVec.eq_of_getLsbD_eq fun i _ => ?_
  rw [BitVec.getLsbD_and, getLsbD_bytePlace a hj, getLsbD_bytePlace b hk]
  by_cases hin : 8 * j ≤ i ∧ i < 8 * j + 8
  · have hout : ¬ (8 * k ≤ i ∧ i < 8 * k + 8) := by omega
    simp [hout]
  · simp [hin]

/-- R99: the word made of bytes is their sum, each in its place: no byte shares a bit with those before it, so each
addition is an OR. -/
theorem wordLe_eq_sum (b : Vector Byte 8) : wordLe b = ∑ j : Fin 8, bytePlace (b.get j) j.val := by
  rw [Fin.sum_univ_eight, wordLe]
  simp [BitVec.add_eq_or_of_and_eq_zero, BitVec.and_or_distrib_right, bytePlace_and_bytePlace]

end Sys2Proof

/-! The statements of the family 40_primitives.md. -/

namespace Sys2Proof.Proofs

open Sys2Proof.Machine

/-- Settles O38: the two inverses, the place of each byte, and the sum. -/
theorem littleEndianCodecInverts : Obligations.LittleEndianCodecInverts :=
  ⟨bytesLe_wordLe, wordLe_bytesLe, bytesLe_get, wordLe_eq_sum⟩

/-- Settles O25: FIELD_MUL_INV is the inverse on both sides, which makes FIELD_MUL a bijection, and TRANSFORM is a
permutation of the configuration (R97). -/
theorem fieldUnitLaws : Obligations.FieldUnitLaws := fun c =>
  ⟨fieldMulInv_fieldMul c, fieldMul_fieldMulInv c,
    Function.bijective_iff_has_inverse.2 ⟨fieldMulInv c, fieldMulInv_fieldMul c, fieldMul_fieldMulInv c⟩,
    c.transform.bijective⟩

end Sys2Proof.Proofs
end

section
/-! SUPPORT. Key and IV setup (41_setup.md): the words that LOAD puts into S, what a construction reads of KEY, the lane
updates of a construction seen as a shift register (42_mixing.md R140), and the words that reads of KSOUT take from G
(R123). -/

namespace Sys2Proof.Machine

/-! ## Lengths -/

/-- R120, R121: the lengths that select no variant. -/
theorem variantOfLengths_eq_none {klen ivlen : BitVec 8} :
    variantOfLengths klen ivlen = none ↔ (klen ≠ 32 ∧ klen ≠ 64) ∨ ivlen ≠ 32 := by
  unfold variantOfLengths
  split_ifs with hiv h32 h64
  · exact iff_of_true rfl (.inr hiv)
  · exact iff_of_false nofun (by simp [not_not.1 hiv, h32])
  · exact iff_of_false nofun (by simp [not_not.1 hiv, h64])
  · exact iff_of_true rfl (.inl ⟨h32, h64⟩)

/-! ## Slots -/

section
variable {kw : Nat} [NeZero kw] (K : Vector Word64 kw) (iv : Vector Word64 4) {sl : Slot kw}

/-- R110: a slot with no IV word. -/
theorem slotVal_of_no_ivWord (h : sl.ivWord = none) :
    slotVal K iv sl =
      if sl.complement then rget K sl.keyWord ^^^ BitVec.allOnes 64 else rget K sl.keyWord := by
  simp only [slotVal, h, BitVec.ofNat_eq_ofNat, BitVec.xor_zero, BitVec.xor_allOnes]

/-- R110: a slot with an IV word. -/
theorem slotVal_of_ivWord {j : Fin 4} (h : sl.ivWord = some j) :
    slotVal K iv sl =
      if sl.complement then rget K sl.keyWord ^^^ rget iv j ^^^ BitVec.allOnes 64
      else rget K sl.keyWord ^^^ rget iv j := by
  simp only [slotVal, h, BitVec.xor_allOnes]

end

/-- R114: key word `i` of variant 256 is KEY[i]. -/
@[simp] theorem rget_keyWords256 (key : Vector Word64 8) (i : Fin 4) :
    rget (keyWords256 key) i = rget key (Fin.castLE (by decide) i) :=
  match i with
  | 0 | 1 | 2 | 3 => rfl

/-- R114: key word `i` of variant 512 is KEY[i]. -/
@[simp] theorem keyWords512_eq (key : Vector Word64 8) : keyWords512 key = key := rfl

/-! ## LOAD -/

section
variable (c : Config) (key : Vector Word64 8) (iv : Vector Word64 4) (x : CipherInstance)

/-- R117: slot `i` after LOAD(256). -/
theorem load_v256_lane (i : Fin 16) :
    (load c .v256 key iv x).lane i = slotVal (keyWords256 key) iv (c.slotMap256 i) := rget_ofFn _ i

/-- R117: slot `i` after LOAD(512). -/
theorem load_v512_lane (i : Fin 16) :
    (load c .v512 key iv x).lane i = slotVal (keyWords512 key) iv (c.slotMap512 i) := rget_ofFn _ i

end

/-! ## What variant 256 reads of KEY -/

/-- R115: the key words of variant 256 depend on KEY[0..3] only. -/
theorem keyWords256_congr {k₁ k₂ : Vector Word64 8} (h : ∀ i : Fin 8, i.val < 4 → rget k₁ i = rget k₂ i) :
    keyWords256 k₁ = keyWords256 k₂ :=
  rget_ext fun i => by simpa using h (Fin.castLE (by decide) i) i.isLt

/-- R115: a construction of variant 256 depends on KEY[0..3] only. -/
theorem construct_v256_congr {k₁ k₂ : Vector Word64 8} (h : ∀ i : Fin 8, i.val < 4 → rget k₁ i = rget k₂ i)
    (c : Config) (iv : Vector Word64 4) (x : CipherInstance) :
    construct c .v256 k₁ iv x = construct c .v256 k₂ iv x := by
  simp only [construct, load, loadWords, keyWords256_congr h]

/-! ## One lane update of the shift register -/

@[simp] theorem laneAt_zero (n : Fin 16) : laneAt n 0 = n := Fin.ext (Nat.mod_eq_of_lt n.isLt)

/-- R94: sixteen lanes on is the lane itself. -/
@[simp] theorem laneAt_sixteen (n : Fin 16) : laneAt n 16 = n := by
  revert n; decide

/-- R94: a neighbour of the next lane. -/
theorem laneAt_add_one (n : Fin 16) (k : Nat) : laneAt (n + 1) k = laneAt n (k + 1) := by
  refine Fin.ext ?_
  simp only [laneAt, Fin.val_add, Fin.val_one]
  omega

/-- R139: a pass from lane 0 has come to lane `n` after `n` lanes. -/
@[simp] theorem laneAt_zero_val (n : Fin 16) : laneAt 0 n.val = n := by
  revert n; decide

/-- R139: the lane whose turn comes after lane `n`. -/
@[simp] theorem laneAt_zero_val_succ (n : Fin 16) : laneAt 0 (n.val + 1) = n + 1 := by
  revert n; decide

/-- R140: stage `k` is the lane `k` places on. -/
@[simp] theorem shiftView_stage (x : CipherInstance) (n k : Fin 16) :
    (x.shiftView n).stage k = x.laneOff n k.val := rget_ofFn _ k

@[simp] theorem shiftView_r0 (x : CipherInstance) (n : Fin 16) : (x.shiftView n).r0 = x.R0 := rfl
@[simp] theorem shiftView_r1 (x : CipherInstance) (n : Fin 16) : (x.shiftView n).r1 = x.R1 := rfl

/-- R140: writing `v` to S[n] and aging R, seen from the next lane, moves every stage down and puts `v` into
the last. -/
theorem shiftView_ageR_setLane (c : Config) (n : Fin 16) (x : CipherInstance) (v : Word64) :
    (ageR c n (x.setLane n v)).shiftView (n + 1) = (x.shiftView n).update c v := by
  have hsigma : ((ageR c n (x.setLane n v)).shiftView (n + 1)).sigma = (x.shiftView n).shiftIn v := by
    refine rget_ext fun k => ?_
    have hview : rget ((ageR c n (x.setLane n v)).shiftView (n + 1)).sigma k =
        (x.setLane n v).lane (laneAt n (k.val + 1)) := by
      rw [← laneAt_add_one]
      exact shiftView_stage _ _ k
    rw [hview, ShiftRegister.shiftIn, rget_ofFn]
    split
    · next hk =>
      rw [shiftView_stage]
      exact x.laneOff_setLane n v (Nat.succ_pos _) hk
    · next hk =>
      have hlast : k.val + 1 = 16 := by omega
      rw [hlast, laneAt_sixteen, CipherInstance.lane_setLane_same]
  have hr0 : (ageR c n (x.setLane n v)).R0 = add64 x.R1 (x.laneOff n 13) := by
    simp [CipherInstance.laneOff_setLane]
  rw [ShiftRegister.update, ← hsigma, shiftView_stage, shiftView_r1, shiftView_r0,
    show ((13 : Fin 16) : Nat) = 13 from rfl, ← hr0]
  rfl

/-- R140: the terms common to both kinds of lane. -/
theorem laneTerms_eq_feed (c : Config) (n : Fin 16) (x : CipherInstance) :
    laneTerms c n x = (x.shiftView n).feed c := by
  simp [laneTerms, ShiftRegister.feed, CipherInstance.laneOff]

/-- R140: INIT_LANE(n) is one INIT step of the shift register. -/
theorem shiftView_initLane (c : Config) (n : Fin 16) (x : CipherInstance) :
    (initLane c n x).shiftView (n + 1) = (x.shiftView n).init c := by
  rw [initLane, shiftView_ageR_setLane, laneTerms_eq_feed, BitVec.xor_assoc]
  simp [ShiftRegister.init]

/-- R140: the state part of GEN_LANE(n) is one GEN step of the shift register. -/
theorem shiftView_genLaneState (c : Config) (n : Fin 16) (x : CipherInstance) :
    (genLaneState c n x).shiftView (n + 1) = (x.shiftView n).gen c := by
  rw [genLaneState, shiftView_ageR_setLane, laneTerms_eq_feed, ShiftRegister.gen]

/-- R140: GEN_LANE(n) is one GEN step of the shift register. -/
theorem shiftView_genLane (c : Config) (n : Fin 16) (x : CipherInstance) :
    (genLane c n x).shiftView (n + 1) = (x.shiftView n).gen c := shiftView_genLaneState c n x

/-- R140: the word that GEN_LANE(n) puts into G[n] is the output of that GEN step. -/
theorem genLane_gamma_eq_output (c : Config) (n : Fin 16) (x : CipherInstance) :
    (genLane c n x).gamma n = (x.shiftView n).output c := by
  have hnext : (genLaneState c n x).laneOff n 1 = x.laneOff n 1 :=
    genLaneState_lane_other c x (laneAt_ne n (by decide) (by decide))
  have hlast : (genLaneState c n x).laneOff (n + 1) 15 = (genLaneState c n x).lane n := by
    rw [CipherInstance.laneOff, laneAt_add_one, laneAt_sixteen]
  rw [genLane_gamma_same, outputWord, hnext, ShiftRegister.output, ← shiftView_genLaneState, ← hlast]
  simp

/-! ## Passes of the shift register -/

/-- R139: what holds before a pass and is carried over each lane in its turn holds after the pass. -/
theorem foldl_laneOrder_induction {P : Nat → CipherInstance → Prop}
    {f : CipherInstance → Fin 16 → CipherInstance} {x : CipherInstance} (hstart : P 0 x)
    (hlane : ∀ (n : Fin 16) (y), P n.val y → P (n.val + 1) (f y n)) :
    P 16 (laneOrder.foldl f x) := by
  have hlanes : ∀ (m : Nat) (hm : m ≤ 16), P m (Fin.foldl m (fun y n => f y (n.castLE hm)) x) := by
    intro m
    induction m with
    | zero => intro _; rwa [Fin.foldl_zero]
    | succ m ih =>
      intro hm
      rw [Fin.foldl_succ_last]
      exact hlane ⟨m, hm⟩ _ (ih (by omega))
  rw [laneOrder, ← Fin.foldl_eq_foldl_finRange]
  exact hlanes 16 le_rfl

/-- R140: INIT_PASS is sixteen INIT steps of the shift register. -/
theorem shiftView_initPass (c : Config) (x : CipherInstance) :
    (initPass c x).shiftView 0 = (ShiftRegister.init c)^[16] (x.shiftView 0) := by
  refine foldl_laneOrder_induction
    (P := fun k y => y.shiftView (laneAt 0 k) = (ShiftRegister.init c)^[k] (x.shiftView 0)) rfl fun n y ih => ?_
  rw [laneAt_zero_val] at ih
  rw [laneAt_zero_val_succ, shiftView_initLane, ih, Function.iterate_succ_apply']

/-- After the first `k` lanes of a generation pass: `k` GEN steps, whose outputs are in G[0..k-1]. -/
def GenSteps (c : Config) (q : ShiftRegister) (k : Nat) (y : CipherInstance) : Prop :=
  y.shiftView (laneAt 0 k) = (ShiftRegister.gen c)^[k] q ∧
    ∀ m : Fin 16, m.val < k → y.gamma m = ((ShiftRegister.gen c)^[m.val] q).output c

/-- R135, R140: GEN_LANE(n) takes one more GEN step, puts its output into G[n] and leaves the outputs before it. -/
theorem GenSteps.step {c : Config} {q : ShiftRegister} {n : Fin 16} {y : CipherInstance}
    (h : GenSteps c q n.val y) : GenSteps c q (n.val + 1) (genLane c n y) := by
  obtain ⟨hview, houtputs⟩ := h
  rw [laneAt_zero_val] at hview
  refine ⟨?_, fun m hm => ?_⟩
  · rw [laneAt_zero_val_succ, shiftView_genLane, hview, Function.iterate_succ_apply']
  · by_cases hmn : m = n
    · rw [hmn, genLane_gamma_eq_output, hview]
    · have hlt : m.val < n.val := by omega
      rw [genLane_gamma_other c y hmn, houtputs m hlt]

/-- R137, R140: GEN_PASS is sixteen GEN steps of the shift register, and G holds their outputs. -/
theorem genPass_genSteps (c : Config) (x : CipherInstance) : GenSteps c (x.shiftView 0) 16 (genPass c x) :=
  foldl_laneOrder_induction (P := GenSteps c (x.shiftView 0)) ⟨rfl, nofun⟩ fun _ _ => GenSteps.step

theorem shiftView_genPass (c : Config) (x : CipherInstance) :
    (genPass c x).shiftView 0 = (ShiftRegister.gen c)^[16] (x.shiftView 0) := (genPass_genSteps c x).left

theorem genPass_gamma (c : Config) (x : CipherInstance) (n : Fin 16) :
    (genPass c x).gamma n = ((ShiftRegister.gen c)^[n.val] (x.shiftView 0)).output c :=
  (genPass_genSteps c x).right n n.isLt

/-- R119, R140: the two initialization passes of a construction are 32 INIT steps. -/
theorem shiftView_initPass_initPass (c : Config) (x : CipherInstance) :
    (initPass c (initPass c x)).shiftView 0 = (ShiftRegister.init c)^[32] (x.shiftView 0) := by
  rw [shiftView_initPass, shiftView_initPass, ← Function.iterate_add_apply]

/-! ## The words that reads of KSOUT take -/

theorem genLane_setCur (c : Config) (n : Fin 16) (x : CipherInstance) (d : Fin 17) :
    genLane c n (x.setCur d) = (genLane c n x).setCur d := rfl

/-- R137: a generation pass does not read cur. -/
@[simp] theorem genPass_setCur (c : Config) (x : CipherInstance) (d : Fin 17) :
    genPass c (x.setCur d) = genPass c x := by
  have hfold : laneOrder.foldl (fun y n => genLane c n y) (x.setCur d) =
      (laneOrder.foldl (fun y n => genLane c n y) x).setCur d :=
    List.foldl_hom (fun y => y.setCur d) fun y n => genLane_setCur c n y d
  rw [genPass, hfold, CipherInstance.setCur_setCur, genPass]

/-- Writing to cur what it holds changes nothing. -/
theorem CipherInstance.setCur_of_cur_eq {x : CipherInstance} {d : Fin 17} (h : x.cur = d) : x.setCur d = x := by
  subst h; rfl

/-- R123, R152: S, R, G and cur once `k` words have been taken since cur was 0. -/
def CipherInstance.afterWords (x : CipherInstance) (k : Nat) : CipherInstance :=
  ((genPass Config.active)^[k / 16] x).setCur ⟨k % 16, by omega⟩

@[simp] theorem CipherInstance.afterWords_cur (x : CipherInstance) (k : Nat) :
    (x.afterWords k).cur.val = k % 16 := rfl

theorem CipherInstance.afterWords_zero {x : CipherInstance} (h : x.cur = 0) : x.afterWords 0 = x :=
  CipherInstance.setCur_of_cur_eq h

/-- R123, R150, R151: the word taken after `k` others is keystream word `k`; the one that brings cur to 16 starts the
next pass. -/
theorem takeWord_afterWords (x : CipherInstance) (k : Nat) :
    takeWord Config.active (x.afterWords k) = some (Claims.streamWord x k, x.afterWords (k + 1)) := by
  by_cases hlast : k % 16 = 15
  · have hcur : (x.afterWords k).cur = 15 := Fin.ext hlast
    have hdiv : (k + 1) / 16 = k / 16 + 1 := by omega
    have hmod : (k + 1) % 16 = 0 := by omega
    have hword : (x.afterWords k).gamma 15 = Claims.streamWord x k := by
      simp [CipherInstance.afterWords, Claims.streamWord, hlast]
    have hnext : genPass Config.active ((x.afterWords k).setCur 16) = x.afterWords (k + 1) := by
      simp [CipherInstance.afterWords, hdiv, hmod, Function.iterate_succ_apply']
    rw [takeWord_refill _ hcur, hword, hnext]
  · have hcur : (x.afterWords k).cur.val < 15 := by rw [CipherInstance.afterWords_cur]; omega
    have hdiv : (k + 1) / 16 = k / 16 := by omega
    have hmod : (k + 1) % 16 = k % 16 + 1 := by omega
    rw [takeWord_within _ hcur]
    simp [CipherInstance.afterWords, Claims.streamWord, hdiv, hmod]

/-- R123: the state in which `k` reads of KSOUT have completed since cur was 0; the latest word comes first. -/
def State.afterKsoutReads (s : State) (k : Nat) : State :=
  { s with
    inst := s.inst.afterWords k
    host := { s.host with
      returned := ((List.range k).map (Claims.streamWord s.inst)).reverse ++ s.host.returned } }

theorem State.afterKsoutReads_zero {s : State} (h : s.inst.cur = 0) : s.afterKsoutReads 0 = s := by
  rw [State.afterKsoutReads, CipherInstance.afterWords_zero h]
  rfl

/-- R71: read `k + 1` puts keystream word `k` before the words returned until then. -/
theorem State.afterKsoutReads_succ_returned (s : State) (k : Nat) :
    (s.afterKsoutReads (k + 1)).host.returned =
      Claims.streamWord s.inst k :: (s.afterKsoutReads k).host.returned := by
  simp [State.afterKsoutReads, List.range_succ]

/-- R150, R178: with READY = 1, RD KSOUT returns the word taken. -/
theorem exec_rdKsout_of_takeWord {s : State} {w : Word64} {y : CipherInstance} (hready : s.ready = true)
    (htake : takeWord Config.active s.inst = some (w, y)) : exec .rdKsout s = .next ((s.setInst y).returns w) := by
  rw [exec, execRdKsout, nextWord, if_pos hready, htake]

/-- R150, R178: one more read of KSOUT. -/
theorem exec_rdKsout_afterKsoutReads {s : State} (h : s.ready = true) (k : Nat) :
    exec .rdKsout (s.afterKsoutReads k) = .next (s.afterKsoutReads (k + 1)) := by
  have hready : (s.afterKsoutReads k).ready = true := h
  rw [exec_rdKsout_of_takeWord hready (takeWord_afterWords s.inst k), State.returns, State.setInst_host,
    ← State.afterKsoutReads_succ_returned]
  rfl

/-- R123, R152: any number of further reads of KSOUT. -/
theorem runInstrs_rdKsout {s : State} (h : s.ready = true) (n k : Nat) :
    Claims.runInstrs (List.replicate n .rdKsout) (s.afterKsoutReads k) = .next (s.afterKsoutReads (k + n)) := by
  induction n generalizing k with
  | zero => rfl
  | succ n ih =>
    rw [List.replicate_succ, Claims.runInstrs, exec_rdKsout_afterKsoutReads h k]
    exact (ih (k + 1)).trans (by rw [Nat.add_right_comm, Nat.add_assoc])

end Sys2Proof.Machine

/-! The statements of the family 41_setup.md. -/

namespace Sys2Proof.Proofs

open Sys2Proof.Machine Sys2Proof.Claims

/-- Settles O13: SETUP 32, 32 constructs variant 256, which reads KEY[0..3] only, and both states then clear KEY. -/
theorem variant256IgnoresUpperKeyWords : Obligations.Variant256IgnoresUpperKeyWords := by
  intro s k hkey
  have hvariant : setupVariant (.setup 32 32) = some .v256 := rfl
  have hsame : exec (.setup 32 32) (s.withStaging k s.iv) = exec (.setup 32 32) s := by
    rw [exec_of_setupVariant hvariant, exec_of_setupVariant hvariant]
    simp only [State.withStaging_key, State.withStaging_iv, State.withStaging_inst]
    rw [construct_v256_congr hkey]
    rfl
  have hexec := exec_of_setupVariant hvariant s
  exact ⟨_, hexec, hsame.trans hexec, rfl⟩

/-- Settles O30: 16 + 16 INIT steps for the two initialization passes, then the 16 GEN steps of the generation pass. -/
theorem constructionRunsFortyEightLaneUpdates : Obligations.ConstructionRunsFortyEightLaneUpdates := by
  intro c v key iv x
  rw [construct_eq, ← shiftView_initPass_initPass]
  exact ⟨shiftView_genPass c _, genPass_gamma c _⟩

/-- Settles O31, by induction on the number of reads, each of which takes the next keystream word. -/
theorem keystreamWordFormula : Obligations.KeystreamWordFormula := by
  intro s j hready hcur
  have hrun := runInstrs_rdKsout hready (j + 1) 0
  rw [State.afterKsoutReads_zero hcur, Nat.zero_add] at hrun
  refine ⟨s.afterKsoutReads (j + 1), hrun, ?_, rfl, ?_, rfl⟩
  · rw [State.afterKsoutReads_succ_returned, List.head?_cons]
  · simp [State.afterKsoutReads, Nat.add_comm]

/-- Settles O9: such lengths select no variant. -/
theorem setupWithInvalidLengthKeepsTheInstance : Obligations.SetupWithInvalidLengthKeepsTheInstance := by
  intro klen ivlen s hlengths
  have hnone := variantOfLengths_eq_none.2 hlengths
  have hexec : exec (.setup klen ivlen) s = .next (setupUnder Config.active klen ivlen s) := rfl
  rw [hexec, setupUnder_of_invalid hnone, State.raise_eq]
  rfl

/-- Settles O11, by whether the slot has an IV word. -/
theorem loadFillsEverySlot : Obligations.LoadFillsEverySlot := by
  intro c key iv x i
  refine ⟨?_, ?_, fun _ => rfl⟩
  · rw [load_v256_lane]
    cases h : (c.slotMap256 i).ivWord with
    | none => rw [slotVal_of_no_ivWord _ _ h, rget_keyWords256]
    | some j => rw [slotVal_of_ivWord _ _ h, rget_keyWords256]
  · rw [load_v512_lane, keyWords512_eq]
    cases h : (c.slotMap512 i).ivWord with
    | none => exact slotVal_of_no_ivWord _ _ h
    | some j => exact slotVal_of_ivWord _ _ h

end Sys2Proof.Proofs
end

section
/-! SUPPORT. Lane formulas with the neighbours as sums in `Fin 16`, and what is known between two lanes of a
generation pass. -/

namespace Sys2Proof.Machine

/-! ## One lane update as a formula -/

/-- R94: the lane `k` places on, as a sum in `Fin 16`. -/
theorem CipherInstance.laneOff_val (x : CipherInstance) (n k : Fin 16) : x.laneOff n k.val = x.lane (n + k) := rfl

section
variable (c : Config) (n : Fin 16) (x : CipherInstance)

/-- R130, R135: the terms common to both kinds of lane. -/
theorem laneTerms_eq :
    laneTerms c n x = fieldMul c (x.lane n) ^^^ x.lane (n + 13) ^^^ fieldMulInv c (x.lane (n + 11)) := by
  rw [← x.laneOff_val n 13, ← x.laneOff_val n 11]; rfl

/-- R132: the word that register aging puts into R[0]. -/
theorem add64_R1_laneOff_thirteen : add64 x.R1 (x.laneOff n 13) = x.R1 + x.lane (n + 13) := by
  rw [← x.laneOff_val n 13]; rfl

/-- R135, R136: the output word in terms of the values before the lane update. -/
theorem outputWord_genLaneState :
    outputWord n (genLaneState c n x) =
      add64 (add64 x.R1 (x.laneOff n 13)) (laneTerms c n x) ^^^ transform c x.R0 ^^^ x.laneOff n 1 := by
  have hnext : (genLaneState c n x).laneOff n 1 = x.laneOff n 1 :=
    genLaneState_lane_other c x (laneAt_ne n (by decide) (by decide))
  rw [outputWord, genLaneState_R0, genLaneState_lane_same, genLaneState_R1, hnext]

end

/-! ## Which lanes a lane of a pass reads -/

/-- R131: lane `m` as lane `n` of a pass over `x` reads it: from `z`, the lanes written so far, when its turn came
before that of lane `n`, and from `x` otherwise. -/
def laneSeenBy (n : Fin 16) (x z : CipherInstance) (m : Fin 16) : Word64 :=
  if m < n then z.lane m else x.lane m

/-- R131: lane `n` reads no lane written at its turn or later. -/
theorem laneSeenBy_congr {n : Fin 16} {x y z : CipherInstance} (h : ∀ m < n, y.lane m = z.lane m) (m : Fin 16) :
    laneSeenBy n x y m = laneSeenBy n x z m := by
  unfold laneSeenBy
  split
  · next hm => exact h m hm
  · rfl

/-- R94: with k + d = 16, lane n+k is lane n-d, whose turn comes before that of lane `n` from lane `d` on. -/
theorem laneSeenBy_add (n : Fin 16) (x z : CipherInstance) {k d : Fin 16} (h : k.val + d.val = 16) :
    laneSeenBy n x z (n + k) = if d.val ≤ n.val then z.lane (n - d) else x.lane (n + k) := by
  have hadd : (n + k).val = (n.val + k.val) % 16 := Fin.val_add n k
  have hsub : (n - d).val = (16 - d.val + n.val) % 16 := Fin.val_sub n d
  have hbefore : n + k < n ↔ d.val ≤ n.val := by rw [Fin.lt_def]; omega
  have hlane : n + k = n - d := Fin.ext (by omega)
  simp only [laneSeenBy, hbefore]
  rw [hlane]

/-- R131, R135: what lane `n` of a generation pass over `x` writes, `z` holding the lanes written so far. -/
def genPassTerms (c : Config) (n : Fin 16) (x z : CipherInstance) : Word64 :=
  fieldMul c (x.lane n) ^^^ laneSeenBy n x z (n + 13) ^^^ fieldMulInv c (laneSeenBy n x z (n + 11))

theorem genPassTerms_congr (c : Config) {n : Fin 16} {x y z : CipherInstance}
    (h : ∀ m < n, y.lane m = z.lane m) : genPassTerms c n x y = genPassTerms c n x z := by
  simp only [genPassTerms, laneSeenBy_congr h]

/-- The lanes after the first `k` lanes of a generation pass over `x`: those below `k` hold what the pass wrote, the
others are as before the pass. -/
def GenPassLanes (c : Config) (x : CipherInstance) (k : Nat) (y : CipherInstance) : Prop :=
  (∀ m : Fin 16, m.val < k → y.lane m = genPassTerms c m x y) ∧ ∀ m : Fin 16, k ≤ m.val → y.lane m = x.lane m

namespace GenPassLanes
variable {c : Config} {n : Fin 16} {x y : CipherInstance}

/-- R131: at the turn of lane `n`, every lane is as lane `n` is to read it. -/
theorem lane_eq_laneSeenBy (h : GenPassLanes c x n.val y) (m : Fin 16) : y.lane m = laneSeenBy n x y m := by
  unfold laneSeenBy
  split
  · rfl
  · next hm => exact h.right m (not_lt.1 hm)

theorem laneTerms_eq_genPassTerms (h : GenPassLanes c x n.val y) : laneTerms c n y = genPassTerms c n x y := by
  rw [laneTerms_eq, genPassTerms, ← h.lane_eq_laneSeenBy, ← h.lane_eq_laneSeenBy, h.right n le_rfl]

/-- R135, R139: GEN_LANE(n) writes lane `n` from the lanes it is to read, and changes no lane written before. -/
theorem step (h : GenPassLanes c x n.val y) : GenPassLanes c x (n.val + 1) (genLane c n y) := by
  have hother {m : Fin 16} (hm : m ≠ n) : (genLane c n y).lane m = y.lane m := genLaneState_lane_other c y hm
  have hterms {m : Fin 16} (hm : m ≤ n) : genPassTerms c m x (genLane c n y) = genPassTerms c m x y :=
    genPassTerms_congr c fun j hj => hother (hj.trans_le hm).ne
  refine ⟨fun m hm => ?_, fun m hm => ?_⟩
  · rw [hterms (Nat.le_of_lt_succ hm)]
    by_cases hmn : m = n
    · rw [hmn, genLane_lane, genLaneState_lane_same, h.laneTerms_eq_genPassTerms]
    · rw [hother hmn, h.left m (by omega)]
  · have hmn : m ≠ n := by omega
    rw [hother hmn, h.right m (by omega)]

end GenPassLanes

/-- R131, R137: every lane after a generation pass. -/
theorem genPass_lane (c : Config) (x : CipherInstance) (n : Fin 16) :
    (genPass c x).lane n = genPassTerms c n x (genPass c x) := by
  have hpass : GenPassLanes c x 16 (genPass c x) :=
    foldl_laneOrder_induction (P := GenPassLanes c x) ⟨nofun, fun _ _ => rfl⟩ fun _ _ => GenPassLanes.step
  exact hpass.left n n.isLt

end Sys2Proof.Machine

/-! The statements of the family 42_mixing.md. -/

namespace Sys2Proof.Proofs

open Sys2Proof.Machine

/-- Settles O29, with the lemmas about one lane update and about whole passes of the shift register. -/
theorem shiftRegisterViewAgrees : Obligations.ShiftRegisterViewAgrees := fun c x =>
  ⟨fun n => ⟨shiftView_initLane c n x, shiftView_genLane c n x, genLane_gamma_eq_output c n x⟩,
    shiftView_initPass c x, shiftView_genPass c x, genPass_gamma c x⟩

/-- Settles O26: all the neighbours that INIT_LANE(n) reads are other lanes than S[n]. -/
theorem initLaneFormula : Obligations.InitLaneFormula := by
  intro c n x
  refine ⟨?_, fun _ => initLane_lane_other c x, ?_, initLane_R1 c n x, initLane_G c n x, initLane_cur c n x⟩
  · rw [initLane_lane_same, laneTerms_eq, ← x.laneOff_val n 15]
    rfl
  · rw [initLane_R0, add64_R1_laneOff_thirteen]

/-- Settles O27: the output word reads the new S[n] and R, and the neighbour S[n+1] that the lane leaves. -/
theorem genLaneFormula : Obligations.GenLaneFormula := by
  intro c n x
  refine ⟨?_, fun _ => genLaneState_lane_other c x, ?_, genLane_R1 c n x, ?_, fun _ => genLane_gamma_other c x,
    genLane_cur c n x⟩
  · rw [genLane_lane, genLaneState_lane_same, laneTerms_eq]
  · rw [genLane_R0, genLaneState_R0, add64_R1_laneOff_thirteen]
  · rw [genLane_gamma_same, outputWord_genLaneState, add64_R1_laneOff_thirteen, laneTerms_eq, ← x.laneOff_val n 1]
    rfl

/-- Settles O28, by the invariant `GenPassLanes` over the lanes of the pass. -/
theorem genPassReadsCurrentLanes : Obligations.GenPassReadsCurrentLanes := by
  intro c x n
  refine ⟨(genPass_lane c x n).trans ?_, genPass_cur c x⟩
  rw [genPassTerms, laneSeenBy_add n _ _ (k := 13) (d := 3) rfl, laneSeenBy_add n _ _ (k := 11) (d := 5) rfl]
  rfl

end Sys2Proof.Proofs
end

section
/-! SUPPORT. The keystream (43_keystream.md): when RD KSOUT answers a word, what a construction depends on (R253),
the transactions between two reads (R162), and the steps in which the driver fetches a block (R161). -/

namespace Sys2Proof.Machine

/-! ## When a word can be taken -/

/-- R23, R150: below cur 16 there is a word to take. -/
theorem exists_takeWord_of_cur_lt (c : Config) {x : CipherInstance} (h : x.cur.val < 16) :
    ∃ w y, takeWord c x = some (w, y) := by
  rcases takeWord_cases c x with ⟨hcur, _⟩ | ⟨_, heq⟩ | ⟨_, heq⟩
  · rw [hcur] at h
    exact absurd h (by decide)
  · exact ⟨_, _, heq⟩
  · exact ⟨_, _, heq⟩

/-- R220: below cur 16 no instruction stops the block; RD KSOUT is the only one that reads cur. -/
theorem exists_exec_next_of_cur_lt (i : Instr) {s : State} (h : s.inst.cur.val < 16) : ∃ t, exec i s = .next t := by
  cases i with
  | rdKsout =>
    obtain ⟨w, y, htake⟩ := exists_takeWord_of_cur_lt Config.active h
    cases hready : s.ready with
    | true => exact ⟨_, exec_rdKsout_of_takeWord hready htake⟩
    | false => exact ⟨_, by rw [exec, execRdKsout, nextWord, hready, if_neg Bool.false_ne_true]⟩
  | wrCmd v =>
    rw [exec_wrCmd]
    rcases decodeCmd_cases v with hd | hd | hd | hd | hd <;> rw [hd] <;> exact ⟨_, rfl⟩
  | _ => exact ⟨_, rfl⟩

/-! ## What a construction depends on -/

/-- R140: the shift-register view from lane 0 holds all of S and R. -/
theorem CipherInstance.ext_shiftView {x y : CipherInstance} (hview : x.shiftView 0 = y.shiftView 0)
    (hG : ∀ n, x.gamma n = y.gamma n) (hcur : x.cur = y.cur) : x = y := by
  refine CipherInstance.ext_lanes (fun n => ?_) (congrArg ShiftRegister.r0 hview) (congrArg ShiftRegister.r1 hview)
    hG hcur
  have hstage := congrArg (fun q => q.stage n) hview
  simpa [CipherInstance.laneOff] using hstage

/-- R137: a generation pass reads S and R only; it writes all of G, and cur. -/
theorem genPass_congr (c : Config) {x y : CipherInstance} (h : x.shiftView 0 = y.shiftView 0) :
    genPass c x = genPass c y := by
  refine CipherInstance.ext_shiftView ?_ (fun n => ?_) rfl
  · rw [shiftView_genPass, shiftView_genPass, h]
  · rw [genPass_gamma, genPass_gamma, h]

/-- R117, R253: a construction depends on nothing that the block held before. -/
theorem construct_congr_inst (c : Config) (v : Variant) (key : Vector Word64 8) (iv : Vector Word64 4)
    (x y : CipherInstance) : construct c v key iv x = construct c v key iv y := by
  have hload : (load c v key iv x).shiftView 0 = (load c v key iv y).shiftView 0 := rfl
  rw [construct_eq, construct_eq]
  refine genPass_congr c ?_
  rw [shiftView_initPass_initPass, shiftView_initPass_initPass, hload]

/-- R114, R115: of KEY, a construction depends on the key words of its variant only. -/
theorem construct_congr_key {v : Variant} {k₁ k₂ : Vector Word64 8}
    (h : ∀ i : Fin 8, i.val < Claims.keyWordsOf v → rget k₁ i = rget k₂ i) (c : Config) (iv : Vector Word64 4)
    (x : CipherInstance) : construct c v k₁ iv x = construct c v k₂ iv x := by
  cases v with
  | v256 => exact construct_v256_congr h c iv x
  | v512 => rw [rget_ext fun i => h i i.isLt]

/-! ## A SETUP and then reads of KSOUT -/

/-- R120: the lengths that the statements write for a variant select it. -/
@[simp] theorem variantOfLengths_klenOf (v : Variant) : variantOfLengths (Claims.klenOf v) 32 = some v := by
  cases v <;> rfl

/-- R181: the state after a SETUP of variant `v` with valid lengths. -/
def State.afterSetup (s : State) (v : Variant) : State :=
  ((s.setInst (construct Config.active v s.key s.iv s.inst)).setReady true v).clearStaging

@[simp] theorem State.afterSetup_inst (s : State) (v : Variant) :
    (s.afterSetup v).inst = construct Config.active v s.key s.iv s.inst := rfl
@[simp] theorem State.afterSetup_ready (s : State) (v : Variant) : (s.afterSetup v).ready = true := rfl
@[simp] theorem State.afterSetup_host (s : State) (v : Variant) : (s.afterSetup v).host = s.host := rfl

theorem exec_setup_klenOf (v : Variant) (s : State) :
    exec (.setup (Claims.klenOf v) 32) s = .next (s.afterSetup v) :=
  exec_of_setupVariant (i := .setup (Claims.klenOf v) 32) (variantOfLengths_klenOf v) s

/-- R123: a SETUP and `n` reads of KSOUT complete, and cur was 0 before the first read. -/
theorem runInstrs_setup_rdKsout (v : Variant) (s : State) (n : Nat) :
    Claims.runInstrs (.setup (Claims.klenOf v) 32 :: List.replicate n .rdKsout) s =
      .next ((s.afterSetup v).afterKsoutReads n) := by
  have hreads := runInstrs_rdKsout (s.afterSetup_ready v) n 0
  rw [State.afterKsoutReads_zero (construct_cur ..), Nat.zero_add] at hreads
  rw [Claims.runInstrs, exec_setup_klenOf]
  exact hreads

/-- R71: the words of `n` reads, and then those returned before. -/
theorem State.afterKsoutReads_returned (s : State) (n : Nat) :
    (s.afterKsoutReads n).host.returned =
      ((List.range n).map (Claims.streamWord s.inst)).reverse ++ s.host.returned := rfl

theorem State.afterKsoutReads_returned_take (s : State) (n : Nat) :
    (s.afterKsoutReads n).host.returned.take n = ((List.range n).map (Claims.streamWord s.inst)).reverse := by
  rw [State.afterKsoutReads_returned]
  exact List.take_left' (by simp)

theorem State.afterKsoutReads_returned_length (s : State) (n : Nat) :
    (s.afterKsoutReads n).host.returned.length = s.host.returned.length + n := by
  simp [State.afterKsoutReads_returned, Nat.add_comm]

/-! ## Transactions between the reads -/

/-- READY = 1 in both states, with the same S, R, G and cur, and cur in 0..15: what decides their next keystream
words. -/
structure SameKeystream (s u : State) : Prop where
  ready_left : s.ready = true
  ready_right : u.ready = true
  inst : s.inst = u.inst
  cursor : s.inst.cur.val < 16

/-- R150: such states answer the next RD KSOUT with the same word, and then they are such states again. -/
theorem SameKeystream.exec_rdKsout {s u : State} (h : SameKeystream s u) :
    ∃ s' u' w, exec .rdKsout s = .next s' ∧ s'.host.returned = w :: s.host.returned ∧
      exec .rdKsout u = .next u' ∧ u'.host.returned = w :: u.host.returned ∧ SameKeystream s' u' := by
  obtain ⟨w, y, htake⟩ := exists_takeWord_of_cur_lt Config.active h.cursor
  have htake_right : takeWord Config.active u.inst = some (w, y) := h.inst ▸ htake
  exact ⟨_, _, w, exec_rdKsout_of_takeWord h.ready_left htake, rfl,
    exec_rdKsout_of_takeWord h.ready_right htake_right, rfl,
    ⟨h.ready_left, h.ready_right, rfl, takeWord_cur_lt htake⟩⟩

/-- R162: any other instruction, a successful SETUP and ZEROIZE apart, leaves the next words as they are. -/
theorem SameKeystream.exec_left {s u : State} (h : SameKeystream s u) {i : Instr} (hkeeps : Claims.keepsInstance i)
    (hne : i ≠ .rdKsout) : ∃ t, exec i s = .next t ∧ SameKeystream t u := by
  obtain ⟨t, hexec⟩ := exists_exec_next_of_cur_lt i h.cursor
  obtain ⟨hready, _, hinst⟩ := Proofs.onlySetupZeroizeAndKeystreamReadsChangeTheInstance i s t hexec hkeeps
  have hinst_eq : t.inst = s.inst := hinst hne
  exact ⟨t, hexec, hready.trans h.ready_left, h.ready_right, hinst_eq.trans h.inst, hinst_eq ▸ h.cursor⟩

/-- R162: some instructions on one side and their KSOUT reads alone on the other. -/
theorem SameKeystream.runInstrs_filter {is : List Instr} (hkeeps : ∀ i ∈ is, Claims.keepsInstance i) {s u : State}
    (h : SameKeystream s u) :
    ∃ t v, Claims.runInstrs is s = .next t ∧
      Claims.runInstrs (is.filter fun i => decide (i = .rdKsout)) u = .next v ∧ SameKeystream t v := by
  induction is generalizing s u with
  | nil => exact ⟨s, u, rfl, rfl, h⟩
  | cons i is ih =>
    obtain ⟨hkeeps_head, hkeeps_tail⟩ := List.forall_mem_cons.1 hkeeps
    by_cases hread : i = .rdKsout
    · subst hread
      obtain ⟨s', u', _, hs', _, hu', _, hnext⟩ := h.exec_rdKsout
      simpa [Claims.runInstrs, hs', hu'] using ih hkeeps_tail hnext
    · obtain ⟨s', hs', hnext⟩ := h.exec_left hkeeps_head hread
      simpa [Claims.runInstrs, hs', hread] using ih hkeeps_tail hnext

/-! ## Fetching a block into the tail buffer -/

/-- The host keeps no record of a read (R200, R259). -/
@[simp] theorem State.hostAfter_rdKsout (s : State) : s.hostAfter .rdKsout = s := rfl

/-- R259: a read is never issued too early. -/
@[simp] theorem State.hostFault_rdKsout (s : State) : s.hostFault .rdKsout = false := Bool.and_false _

@[simp] theorem State.setProgram_setProgram (s : State) (p q : List HostEvent) :
    (s.setProgram p).setProgram q = s.setProgram q := rfl

/-- The driver acts when its action is the next event. -/
theorem step_setProgram_driver (s : State) (op : DriverOp) (rest : List HostEvent) :
    step (s.setProgram (.driver op :: rest)) = driverStep op (s.setProgram rest) := rfl

/-- R178: a RD KSOUT that the host issues. -/
theorem step_issue_rdKsout {s t : State} {rest : List HostEvent}
    (hexec : exec .rdKsout (s.setProgram rest) = .next t) : step (s.setProgram (issue .rdKsout :: rest)) = .next t := by
  have hprog : (s.setProgram (issue .rdKsout :: rest)).host.program =
      .transaction (encodeTransaction .rdKsout) :: rest := rfl
  rw [step_transaction hprog, transact_issued rfl, State.setProgram_setProgram,
    transact_of_exec (State.hostFault_rdKsout _) hexec, State.hostAfter_rdKsout]

/-- R161: a read of KSOUT and the driver's part after it take two steps, and the word is in TB. -/
theorem core_run_fetchWord {s : State} {w : Word64} {y : CipherInstance} (hready : s.ready = true)
    (htake : takeWord Config.active s.inst = some (w, y)) (j : Fin 16) (rest : List HostEvent) (m : Nat) :
    Sys2Proof.core.run (m + 2) (s.setProgram (issue .rdKsout :: .driver (.takeWord j) :: rest)) =
      Sys2Proof.core.run m ((((s.setInst y).returns w).setTb (putWord s.host.tb j w)).setProgram rest) := by
  have hread := step_issue_rdKsout (rest := .driver (.takeWord j) :: rest)
    (exec_rdKsout_of_takeWord (s := s.setProgram (.driver (.takeWord j) :: rest)) hready htake)
  have hput : step (((s.setInst y).returns w).setProgram (.driver (.takeWord j) :: rest)) =
      .next ((((s.setInst y).returns w).setTb (putWord s.host.tb j w)).setProgram rest) := by
    rw [step_setProgram_driver]
    exact driverTakeWord_cons (s := ((s.setInst y).returns w).setProgram rest) (ws := s.host.returned) rfl
  exact (core_run_succ hread).trans (core_run_succ hput)

/-- R161: TB once the first `k` keystream words have been put into it. -/
def tailAfterWords (tb : Vector Byte 128) (x : CipherInstance) (k : Nat) : Vector Byte 128 :=
  Vector.ofFn fun i => if i.val / 8 < k then Claims.streamByte x i.val else tb.get i

@[simp] theorem tailAfterWords_get (tb : Vector Byte 128) (x : CipherInstance) (k : Nat) (i : Fin 128) :
    (tailAfterWords tb x k).get i = if i.val / 8 < k then Claims.streamByte x i.val else tb.get i := by
  simp [tailAfterWords, Vector.get_eq_getElem]

/-- Two tail buffers with the same bytes are equal. -/
theorem tail_ext {tb tb' : Vector Byte 128} (h : ∀ i, tb.get i = tb'.get i) : tb = tb' :=
  Vector.ext fun i hi => h ⟨i, hi⟩

theorem tailAfterWords_zero (tb : Vector Byte 128) (x : CipherInstance) : tailAfterWords tb x 0 = tb :=
  tail_ext fun i => by rw [tailAfterWords_get, if_neg (Nat.not_lt_zero _)]

/-- R161: putting keystream word `j` after the words before it. -/
theorem putWord_tailAfterWords (tb : Vector Byte 128) (x : CipherInstance) (j : Fin 16) :
    putWord (tailAfterWords tb x j.val) j (Claims.streamWord x j.val) = tailAfterWords tb x (j.val + 1) := by
  refine tail_ext fun i => ?_
  rw [putWord_get, tailAfterWords_get, tailAfterWords_get]
  rcases lt_trichotomy (i.val / 8) j.val with hlt | heq | hgt
  · rw [if_neg hlt.ne, if_pos hlt, if_pos (Nat.lt_succ_of_lt hlt)]
  · rw [if_pos heq, if_pos (by omega), serialize, bytesLe_get, Claims.streamByte, heq]
  · rw [if_neg hgt.ne', if_neg hgt.not_gt, if_neg (by omega)]

/-- R161: the state in which the driver has fetched `k` keystream words into TB since cur was 0. -/
def State.afterFetchedWords (s : State) (k : Nat) : State :=
  (s.afterKsoutReads k).setTb (tailAfterWords s.host.tb s.inst k)

theorem State.afterFetchedWords_zero {s : State} (h : s.inst.cur = 0) : s.afterFetchedWords 0 = s := by
  rw [State.afterFetchedWords, State.afterKsoutReads_zero h, tailAfterWords_zero]
  rfl

/-- R161: keystream word `j` is read and put into TB after the words before it. -/
theorem State.afterFetchedWords_succ (s : State) (j : Fin 16) :
    (((s.afterFetchedWords j.val).setInst (s.inst.afterWords (j.val + 1))).returns
        (Claims.streamWord s.inst j.val)).setTb
      (putWord (s.afterFetchedWords j.val).host.tb j (Claims.streamWord s.inst j.val)) =
      s.afterFetchedWords (j.val + 1) := by
  have htb : (s.afterFetchedWords j.val).host.tb = tailAfterWords s.host.tb s.inst j.val := rfl
  rw [htb, putWord_tailAfterWords]
  simp only [State.afterFetchedWords, State.returns, State.setTb, State.setInst,
    State.afterKsoutReads_succ_returned]
  rfl

/-- R161: the events that fetch the words of some slots of G. -/
def fetchEvents (js : List (Fin 16)) : List HostEvent :=
  js.flatMap fun j => [issue .rdKsout, .driver (.takeWord j)]

theorem nextBlockEvents_eq : nextBlockEvents = fetchEvents laneOrder := rfl

/-- R139, R161: the slots left from slot `j` on. -/
theorem laneOrder_drop (j : Fin 16) : laneOrder.drop j.val = j :: laneOrder.drop (j.val + 1) := by
  rw [laneOrder_eq]
  revert j; decide

/-- R161: the next word of a block takes two steps. -/
theorem core_run_fetchEvents_drop {s : State} (hready : s.ready = true) (rest : List HostEvent) (j : Fin 16)
    (m : Nat) :
    Sys2Proof.core.run (m + 2)
        ((s.afterFetchedWords j.val).setProgram (fetchEvents (laneOrder.drop j.val) ++ rest)) =
      Sys2Proof.core.run m
        ((s.afterFetchedWords (j.val + 1)).setProgram (fetchEvents (laneOrder.drop (j.val + 1)) ++ rest)) := by
  rw [laneOrder_drop j, ← State.afterFetchedWords_succ]
  exact core_run_fetchWord (s := s.afterFetchedWords j.val) hready (takeWord_afterWords s.inst j.val) j _ m

/-- R161: `k` words of a block take 2k steps. -/
theorem core_run_fetchEvents {s : State} (hready : s.ready = true) (hcur : s.inst.cur = 0) (rest : List HostEvent)
    {k : Nat} (hk : k ≤ 16) (m : Nat) :
    Sys2Proof.core.run (m + 2 * k) (s.setProgram (nextBlockEvents ++ rest)) =
      Sys2Proof.core.run m
        ((s.afterFetchedWords k).setProgram (fetchEvents (laneOrder.drop k) ++ rest)) := by
  induction k generalizing m with
  | zero => rw [State.afterFetchedWords_zero hcur, nextBlockEvents_eq]; rfl
  | succ k ih =>
    have hsteps : m + 2 * (k + 1) = m + 2 + 2 * k := by omega
    rw [hsteps, ih (by omega)]
    exact core_run_fetchEvents_drop hready rest ⟨k, by omega⟩ m

/-- R161: a whole block takes 32 steps. -/
theorem core_run_nextBlockEvents {s : State} (hready : s.ready = true) (hcur : s.inst.cur = 0)
    (rest : List HostEvent) (m : Nat) :
    Sys2Proof.core.run (m + 32) (s.setProgram (nextBlockEvents ++ rest)) =
      Sys2Proof.core.run m ((s.afterFetchedWords 16).setProgram rest) := by
  have hnone : fetchEvents (laneOrder.drop 16) = [] := by rw [laneOrder_eq]; rfl
  rw [core_run_fetchEvents hready hcur rest le_rfl m, hnone, List.nil_append]

/-- R161, R201: with the tail empty and cur 0, a call of at least one byte takes 34 steps to come back to itself with
a block in TB: one to put the block's events before the program, 32 for them, one to set tp. -/
theorem core_run_apply_fetch {s : State} {buf n : Nat} {rest : List HostEvent} (hready : s.ready = true)
    (hcur : s.inst.cur = 0) (htp : s.host.tp = 128) (hconsume : s.host.report.mayConsume = true)
    (hprog : s.host.program = .driver (.apply buf (n + 1)) :: rest) (m : Nat) :
    Sys2Proof.core.run (m + 34) s =
      Sys2Proof.core.run m
        (((s.afterFetchedWords 16).setTp 0).setProgram (.driver (.apply buf (n + 1)) :: rest)) := by
  have hissue : step s = .next
      (s.setProgram (nextBlockEvents ++ [.driver .rewind, .driver (.apply buf (n + 1))] ++ rest)) := by
    rw [step_driver hprog]
    exact driverApply_fetch (s := s.setProgram rest) hconsume htp
  have hblock := core_run_nextBlockEvents hready hcur
    (.driver .rewind :: .driver (.apply buf (n + 1)) :: rest) (m + 1)
  have hrewind :
      step ((s.afterFetchedWords 16).setProgram (.driver .rewind :: .driver (.apply buf (n + 1)) :: rest)) =
        .next (((s.afterFetchedWords 16).setTp 0).setProgram (.driver (.apply buf (n + 1)) :: rest)) :=
    step_setProgram_driver ..
  rw [core_run_succ hissue, List.append_assoc]
  exact hblock.trans (core_run_succ hrewind)

/-- R123: the first sixteen keystream words are the words of G. -/
theorem streamWord_of_lt (x : CipherInstance) {j : Nat} (h : j < 16) : Claims.streamWord x j = x.gamma ⟨j, h⟩ := by
  simp [Claims.streamWord, Nat.div_eq_of_lt h, Nat.mod_eq_of_lt h]

/-- R151: sixteen words from cur 0 leave one generation pass run. -/
theorem CipherInstance.afterWords_sixteen (x : CipherInstance) : x.afterWords 16 = genPass Config.active x :=
  genPass_setCur_zero Config.active x

end Sys2Proof.Machine

/-! The statements of the family 43_keystream.md. -/

namespace Sys2Proof.Proofs

open Sys2Proof.Machine Sys2Proof.Claims

/-- Settles O7: the word that `takeWord` gives below cur 15, and at cur 15, where it comes with the refill. -/
theorem keystreamReadReturnsTheWordAtTheCursor : Obligations.KeystreamReadReturnsTheWordAtTheCursor := by
  refine fun s hready => ⟨fun hcur => ?_, fun hcur => ⟨?_, genPass_cur _ _⟩⟩
  · exact exec_rdKsout_of_takeWord hready (takeWord_within Config.active hcur)
  · exact exec_rdKsout_of_takeWord hready (takeWord_refill Config.active hcur)

/-- Settles O32: the two constructions are equal, and the words of the reads depend on nothing else. -/
theorem sameKeySameKeystream : Obligations.SameKeySameKeystream := by
  intro v s₁ s₂ n hkey hiv
  have hinst : (s₁.afterSetup v).inst = (s₂.afterSetup v).inst := by
    rw [State.afterSetup_inst, State.afterSetup_inst, construct_congr_key hkey, hiv]
    exact construct_congr_inst ..
  refine ⟨_, _, runInstrs_setup_rdKsout v s₁ n, runInstrs_setup_rdKsout v s₂ n, ?_, ?_, ?_⟩
  · rw [State.afterKsoutReads_returned_length, State.afterSetup_host]
  · rw [State.afterKsoutReads_returned_take, State.afterKsoutReads_returned_take, hinst]
  · exact congrArg (CipherInstance.afterWords · n) hinst

/-- Settles O33, by the relation `SameKeystream` between the run of all the instructions and that of their reads. -/
theorem interleavingKeepsTheKeystream : Obligations.InterleavingKeepsTheKeystream := by
  intro is s hready hcur hkeeps
  have hstart : SameKeystream s s := ⟨hready, hready, rfl, hcur⟩
  obtain ⟨t, u, ht, hu, hsame⟩ := hstart.runInstrs_filter hkeeps
  obtain ⟨t', u', w, ht', htw, hu', huw, _⟩ := hsame.exec_rdKsout
  exact ⟨t, u, t', u', w, ht, hu, hsame.inst, ht', htw, hu', huw⟩

/-- Settles O48: the state after the 34 steps is known field by field. -/
theorem emptyTailFetchesOneBlock : Obligations.EmptyTailFetchesOneBlock := by
  intro s buf n rest hready hcur htp hconsume hprog
  refine ⟨_, core_run_apply_fetch hready hcur htp hconsume hprog 0, fun i => ?_, rfl, ?_, rfl, rfl⟩
  · have hword : i.val / 8 < 16 := by omega
    refine (tailAfterWords_get s.host.tb s.inst 16 i).trans ?_
    rw [if_pos hword, streamByte, streamWord_of_lt _ hword, CipherInstance.gamma]
  · exact s.inst.afterWords_sixteen.trans (genPass_setCur Config.active s.inst 16).symm

end Sys2Proof.Proofs
end

section
/-! SUPPORT. What a step leaves of the staged words and of the host's record of them (70_reset_and_hazards.md R258,
R259), the commands that a WR CMD carries (44_host_commands.md R179), and the fields of STATUS (R177). -/

namespace Sys2Proof.Machine

/-! ## The host's part of an instruction's effect -/

/-- R51: the block's effect of an instruction leaves the events still to come. -/
theorem exec_host_program {i : Instr} {s t : State} (h : exec i s = .next t) : t.host.program = s.host.program := by
  rcases exec_host_cases h with hhost | ⟨_, hhost⟩ <;> rw [hhost]

/-- R51, R259: the block's effect of an instruction leaves the host's record of what it has staged. -/
theorem exec_host_staged {i : Instr} {s t : State} (h : exec i s = .next t) : t.host.staged = s.host.staged := by
  rcases exec_host_cases h with hhost | ⟨_, hhost⟩ <;> rw [hhost]

/-! ## Unwritten staging registers -/

/-- R259: the registers marked as not written after one is marked: another register, and not written before. -/
theorem get_set_true_eq_false {n : Nat} {g : Vector Bool n} {k i : Fin n} :
    (g.set k.val true k.isLt).get i = false ↔ i ≠ k ∧ g.get i = false := by
  by_cases hik : k = i
  · simp [Vector.get_eq_getElem, hik]
  · have hval : k.val ≠ i.val := fun e => hik (Fin.ext e)
    simp [Vector.get_eq_getElem, Vector.getElem_set_ne, hval, Ne.symm hik]

/-- R172, R173: an unwritten register holds 0 after a write of another one, which is then marked. -/
theorem rget_rset_of_unwritten {n : Nat} {g : Vector Bool n} {x : Vector Word64 n}
    (h : ∀ i, g.get i = false → rget x i = 0) (k : Fin n) (v : Word64) (i : Fin n)
    (hi : (g.set k.val true k.isLt).get i = false) : rget (rset x k v) i = 0 := by
  obtain ⟨hne, hunwritten⟩ := get_set_true_eq_false.1 hi
  rw [rget_rset_other x v hne]
  exact h i hunwritten

/-- The staging invariant sees KEY, IV and the host's record of them, and nothing else of the state. -/
theorem State.StagingInv.congr {s t : State} (hs : s.StagingInv) (hkey : t.key = s.key) (hiv : t.iv = s.iv)
    (hstaged : t.host.staged = s.host.staged) : t.StagingInv where
  key := by rw [hkey, hstaged]; exact hs.key
  iv := by rw [hiv, hstaged]; exact hs.iv

/-- R24, R25: cleared staging registers hold 0, whatever the record says. -/
theorem State.StagingInv.of_cleared {t : State} (hkey : t.key = Vector.replicate 8 0)
    (hiv : t.iv = Vector.replicate 4 0) : t.StagingInv where
  key i _ := by rw [hkey, rget_replicate]
  iv i _ := by rw [hiv, rget_replicate]

/-- Taking an event from the program is no part of the staging invariant. -/
theorem State.StagingInv.setProgram {s : State} (hs : s.StagingInv) (p : List HostEvent) :
    (s.setProgram p).StagingInv := hs.congr rfl rfl rfl

/-- A transaction that completes keeps the staging invariant: a write marks the register that it writes, and what
clears the record clears the registers. -/
theorem transact_keeps_stagingInv {i : Instr} {s t : State} (hs : s.StagingInv) (h : transact i s = .next t) :
    t.StagingInv := by
  obtain ⟨_, u, hexec, rfl⟩ := transact_next h
  have hstaged : (u.hostAfter i).host.staged = s.host.staged.after i := by
    rw [State.hostAfter_host_staged, exec_host_staged hexec]
  rcases Staged.after_cases s.host.staged i with ⟨k, v, rfl, hafter⟩ | ⟨k, v, rfl, hafter⟩ | ⟨hclears, _⟩ |
    ⟨hkey, hiv, hsetup, hzeroize, hafter⟩
  · cases hexec
    rw [hafter] at hstaged
    refine ⟨?_, ?_⟩ <;> rw [hstaged]
    · exact rget_rset_of_unwritten hs.key k v
    · exact hs.iv
  · cases hexec
    rw [hafter] at hstaged
    refine ⟨?_, ?_⟩ <;> rw [hstaged]
    · exact hs.key
    · exact rget_rset_of_unwritten hs.iv k v
  · obtain ⟨hkey, hiv⟩ := exec_clears_staging hexec hclears
    exact .of_cleared (by rw [State.hostAfter_key, hkey]) (by rw [State.hostAfter_iv, hiv])
  · obtain ⟨hsameKey, hsameIv⟩ := Proofs.onlyWritesSetupAndZeroizeChangeStaging i s u hexec hsetup hzeroize
    exact hs.congr (by rw [State.hostAfter_key, hsameKey hkey]) (by rw [State.hostAfter_iv, hsameIv hiv])
      (by rw [hstaged, hafter])

/-- An action of the driver reaches KEY, IV and the record of them only through the transactions that it puts on the
port (R200). -/
theorem driverStep_staging {op : DriverOp} {s t : State} (h : driverStep op s = .next t) :
    t.key = s.key ∧ t.iv = s.iv ∧ t.host.staged = s.host.staged := by
  rcases driverStep_next_cases h with ⟨rfl, _⟩ | ⟨_, _, _, rfl⟩ | ⟨_, rfl⟩ | ⟨_, _, _, _, _, rfl⟩ | ⟨_, _, rfl⟩ |
    ⟨_, _, _, rfl⟩ | ⟨_, _, _, _, rfl⟩ | ⟨_, _, rfl⟩ <;> simp [xorByte]

/-- Every kind of event keeps the staging invariant. -/
theorem step_keeps_stagingInv {s t : State} (hs : s.StagingInv) (h : step s = .next t) : t.StagingInv := by
  rcases step_cases s with ⟨_, heq⟩ | ⟨_, rest, _, heq⟩ | ⟨rest, _, heq⟩ | ⟨_, rest, _, heq⟩ <;> rw [heq] at h
  · cases h
    exact hs
  · exact transact_keeps_stagingInv (hs.setProgram rest) h
  · cases h
    exact .of_cleared rfl rfl
  · obtain ⟨hkey, hiv, hstaged⟩ := driverStep_staging h
    exact (hs.setProgram rest).congr hkey hiv hstaged

/-! ## Reads of KSOUT with READY = 0 -/

/-- R224: with READY = 0, RD KSOUT raises NotReady and returns 0. -/
theorem exec_rdKsout_of_not_ready {s : State} (h : s.ready = false) :
    exec .rdKsout s = .next ((s.raise .notReady).returns 0) := by
  rw [exec, execRdKsout, nextWord, h, if_neg Bool.false_ne_true]

/-- R178, R182: with READY = 0, only a successful SETUP makes READY 1. -/
theorem exec_keeps_not_ready {i : Instr} {s t : State}
    (hi : ∀ a b, effectOf i = .setup a b → variantOfLengths a b = none) (hs : s.ready = false)
    (h : exec i s = .next t) : t.ready = false := by
  by_cases hzeroize : effectOf i = .zeroize
  · rw [← exec_effectOf, hzeroize] at h
    cases h
    rfl
  · obtain ⟨hready, _, _⟩ :=
      Proofs.onlySetupZeroizeAndKeystreamReadsChangeTheInstance i s t h ⟨hi, hzeroize⟩
    rw [hready, hs]

/-- What each of some instructions keeps holds after all of them. -/
theorem runInstrs_induction {P : State → Prop} {is : List Instr}
    (hstep : ∀ i ∈ is, ∀ s t, P s → exec i s = .next t → P t) {s t : State} (hs : P s)
    (h : Claims.runInstrs is s = .next t) : P t := by
  induction is generalizing s with
  | nil => cases h; exact hs
  | cons i is ih =>
    obtain ⟨hhead, htail⟩ := List.forall_mem_cons.1 hstep
    rw [Claims.runInstrs] at h
    cases hexec : exec i s with
    | next u => rw [hexec] at h; exact ih htail (hhead s u hs hexec) h
    | fault r => rw [hexec] at h; cases h
    | refused r => rw [hexec] at h; cases h

/-! ## Commands -/

/-- R76, R184: a reserved word raises IllegalCommand as the data of a WR CMD. -/
theorem exec_wrCmd_of_reserved {v : Word64} (h : reservedWord v = true) (s : State) :
    exec (.wrCmd v) s = .next { s with err := Claims.errAfter s 0x04 } := by
  rw [exec_wrCmd, (decodeCmd_eq_reserved_iff v).2 h]
  exact congrArg Host.Outcome.next (State.raise_eq s .illegalCommand)

/-- R174: every command word has an effect, so a WR CMD completes. -/
theorem exists_exec_wrCmd (v : Word64) (s : State) : ∃ t, exec (.wrCmd v) s = .next t := by
  rw [exec_wrCmd]
  rcases decodeCmd_cases v with hd | hd | hd | hd | hd <;> rw [hd] <;> exact ⟨_, rfl⟩

/-- R179: a command with no operands is read from its opcode, where every other field is 0. -/
theorem decodeCmd_of_opcode {v : Word64} {i : Instr} {opc : BitVec 8} (hwf : i.wellFormed = true)
    (hf : i.format = .cmd) (henc : encodeCmd i = mkCmd opc 0 0) (hrsv : cmdRsv v = 0) (hlens : cmdLens v = 0)
    (hopc : cmdOpc v = opc) : decodeCmd v = i := by
  obtain ⟨hklen, hivlen⟩ := lengths_of_cmdLens hlens
  rw [← mkCmd_of_fields hrsv hopc hklen hivlen, ← henc, decodeCmd_encodeCmd hwf hf]

/-- R76, R227: nonzero lengths make every word but SETUP reserved. -/
theorem reservedWord_of_lengths {v : Word64} (hopc : cmdOpc v ≠ 1) (hlens : cmdLens v ≠ 0) :
    reservedWord v = true := by
  refine (reservedWord_iff v).2 ?_
  by_cases hknown : cmdOpc v = 0 ∨ cmdOpc v = 2 ∨ cmdOpc v = 3
  · exact .inr (.inr ⟨hknown, hlens⟩)
  · exact .inl (by bv_omega)

/-! ## Staging a word -/

/-- A second write to a register replaces the first. -/
@[simp] theorem rset_rset {k : Nat} (x : Vector Word64 k) (i : Fin k) (v w : Word64) :
    rset (rset x i v) i w = rset x i w := Vector.set_set ..

/-- R172: the last write of a key word counts. -/
theorem State.setKey_setKey (s : State) (i : Fin 8) (v w : Word64) : (s.setKey i v).setKey i w = s.setKey i w := by
  simp [State.setKey]

/-- R173: the last write of an IV word counts. -/
theorem State.setIv_setIv (s : State) (i : Fin 4) (v w : Word64) : (s.setIv i v).setIv i w = s.setIv i w := by
  simp [State.setIv]

/-- R115: variant 256 does not see a write to KEY[4..7]. -/
theorem construct_v256_rset {i : Fin 8} (hi : 4 ≤ i.val) (c : Config) (key : Vector Word64 8) (v : Word64)
    (iv : Vector Word64 4) (x : CipherInstance) :
    construct c .v256 (rset key i v) iv x = construct c .v256 key iv x := by
  refine construct_v256_congr (fun j hj => ?_) c iv x
  have hne : j ≠ i := by omega
  exact rget_rset_other key v hne

/-! ## The fields of STATUS -/

theorem readyBit_getLsbD (r : Bool) (k : Nat) : (readyBit r).getLsbD k = (decide (k = 0) && r) := by
  cases r <;> simp [readyBit]

theorem Variant.bit_getLsbD (v : Variant) (k : Nat) :
    v.bit.getLsbD k = (decide (k = 0) && decide (v = .v512)) := by
  cases v <;> simp [Variant.bit]

/-- R29, R177: STATUS bit by bit: READY, VARIANT, ERR from bit 8 on, and 0 elsewhere. -/
theorem State.status_getLsbD (s : State) (k : Nat) :
    s.status.getLsbD k =
      (decide (k = 0) && s.ready || decide (k = 1) && decide (s.variant = .v512) ||
        decide (8 ≤ k) && s.err.getLsbD (k - 8)) := by
  have herr : 64 ≤ k → s.err.getLsbD (k - 8) = false := fun _ => BitVec.getLsbD_of_ge _ _ (by omega)
  simp only [State.status, statusOf, BitVec.getLsbD_or, BitVec.getLsbD_shiftLeft, BitVec.getLsbD_setWidth,
    readyBit_getLsbD, Variant.bit_getLsbD]
  grind

end Sys2Proof.Machine

/-! The statements of the family 44_host_commands.md. -/

namespace Sys2Proof.Proofs

open Sys2Proof.Machine Sys2Proof.Claims

/-- Settles O60, event by event: a transaction by what it does to the record, reset and the driver by their effect on
KEY and IV. -/
theorem unwrittenStagingRegistersHoldZero : Obligations.UnwrittenStagingRegistersHoldZero := fun _ _ =>
  step_keeps_stagingInv

/-- Settles O14: no instruction but a successful SETUP makes READY 1 again, so a later RD KSOUT still finds READY = 0. -/
theorem zeroizeErasesTheBlock : Obligations.ZeroizeErasesTheBlock := by
  refine ⟨decodeCmd_encodeCmd (i := .zeroize) rfl rfl, fun s => ⟨_, rfl, rfl, fun is u his hrun => ?_⟩⟩
  have hready : u.ready = false :=
    runInstrs_induction (P := fun t => t.ready = false)
      (fun i hi _ _ ht hexec => exec_keeps_not_ready (his i hi) ht hexec) rfl hrun
  rw [exec_rdKsout_of_not_ready hready, State.raise_eq]
  rfl

/-- Settles O17, clause by clause: a WR CMD is the command that its word decodes to, and that is a reserved word, SETUP
or the command of its opcode. -/
theorem commandWriteRunsItsCommand : Obligations.CommandWriteRunsItsCommand := by
  intro v s
  refine ⟨exists_exec_wrCmd v s, fun hrsv => ?_, fun hrsv => ⟨fun hopc => ?_, fun hopc => ?_, fun hopc hlens => ?_,
    fun hlens => ⟨fun hopc => ?_, fun hopc => ?_, fun hopc => ?_⟩⟩⟩
  · exact exec_wrCmd_of_reserved ((reservedWord_iff v).2 (.inr (.inl hrsv))) s
  · rw [exec_wrCmd, decodeCmd_setup hopc hrsv]
    rfl
  · exact exec_wrCmd_of_reserved ((reservedWord_iff v).2 (.inl hopc)) s
  · exact exec_wrCmd_of_reserved (reservedWord_of_lengths hopc hlens) s
  · rw [exec_wrCmd, decodeCmd_of_opcode (i := .nop) rfl rfl rfl hrsv hlens hopc]
  · rw [exec_wrCmd, decodeCmd_of_opcode (i := .zeroize) rfl rfl rfl hrsv hlens hopc]
  · rw [exec_wrCmd, decodeCmd_of_opcode (i := .clrerr) rfl rfl rfl hrsv hlens hopc]

/-- Settles O46: below cur 16 every instruction completes, and neither the block nor the host's record of the
transaction touches the events still to come. -/
theorem everyTransactionCompletes : Obligations.EveryTransactionCompletes := by
  intro s t rest hinv hprog hfault
  obtain ⟨u, hexec⟩ := exists_exec_next_of_cur_lt (decodeTransaction t) (s := s.setProgram rest) hinv.cursor
  have hnofault : (s.setProgram rest).hostFault (decodeTransaction t) = false := hfault
  refine ⟨_, (step_transaction hprog).trans (transact_of_exec hnofault hexec), ?_⟩
  rw [State.hostAfter_host_program, exec_host_program hexec, State.setProgram_host_program]

/-- Settles O1: the slots of KEY, then one register of an array after a write to it. -/
theorem writeKeyStagesOneWord : Obligations.WriteKeyStagesOneWord := by
  intro i v s
  refine ⟨?_, s.setKey i v, rfl, rget_rset_same .., fun j hj => rget_rset_other s.key v hj, rfl,
    fun w => congrArg Host.Outcome.next (s.setKey_setKey i v w),
    fun hi c iv x => construct_v256_rset hi c s.key v iv x⟩
  rw [(keyHeader_eq_mkHeader i).1]
  exact decodeTransaction_encodeTransaction_ht (i := .wrKey i v) rfl

/-- Settles O2: the slots of IV, then one register of an array after a write to it. -/
theorem writeIvStagesOneWord : Obligations.WriteIvStagesOneWord := by
  intro i v s
  refine ⟨?_, s.setIv i v, rfl, rget_rset_same .., fun j hj => rget_rset_other s.iv v hj, rfl,
    fun w => congrArg Host.Outcome.next (s.setIv_setIv i v w)⟩
  rw [(ivHeader_eq_mkHeader i).1]
  exact decodeTransaction_encodeTransaction_ht (i := .wrIv i v) rfl

/-- Settles O3: the three rows of the encoding table, and their effect. -/
theorem ignoredWritesChangeNothing : Obligations.IgnoredWritesChangeNothing := fun v _ =>
  ⟨decodeTransaction_encodeTransaction_ht (i := .wrStatus v) rfl,
    decodeTransaction_encodeTransaction_ht (i := .wrKsout v) rfl,
    decodeTransaction_encodeTransaction_ht (i := .wrRsv15 v) rfl, rfl, rfl, rfl⟩

/-- Settles O4: the four rows of the encoding table, and the 0 that each of them returns. -/
theorem writeOnlySlotsReadZero : Obligations.WriteOnlySlotsReadZero := by
  intro i j s
  rw [(keyHeader_eq_mkHeader i).2, (ivHeader_eq_mkHeader j).2]
  exact ⟨decodeTransaction_encodeTransaction_ht (i := .rdKey i) rfl,
    decodeTransaction_encodeTransaction_ht (i := .rdIv j) rfl,
    decodeTransaction_encodeTransaction_ht (i := .rdCmd) rfl,
    decodeTransaction_encodeTransaction_ht (i := .rdRsv15) rfl, rfl, rfl, rfl, rfl⟩

/-- Settles O5: each field of the returned word, bit by bit. -/
theorem statusReadReturnsItsFields : Obligations.StatusReadReturnsItsFields := by
  intro s
  refine ⟨decodeTransaction_encodeTransaction_ht (i := .rdStatus) rfl, s.status, rfl, ?_, ?_, ?_, ?_, ?_⟩
  · rw [State.status_getLsbD]
    simp
  · rw [State.status_getLsbD]
    simp
  · refine BitVec.eq_of_getLsbD_eq fun k hk => ?_
    have hone : 2 + k ≠ 1 := by omega
    have hlow : ¬ 8 ≤ 2 + k := by omega
    simp [State.status_getLsbD, hone, hlow]
  · refine BitVec.eq_of_getLsbD_eq fun k hk => ?_
    have hone : 8 + k ≠ 1 := by omega
    simp [State.status_getLsbD, hk, hone]
  · refine BitVec.eq_of_getLsbD_eq fun k _ => ?_
    have hone : 16 + k ≠ 1 := by omega
    have hhigh : s.err.getLsbD (16 + k - 8) = false := BitVec.getLsbD_of_ge _ _ (by omega)
    simp [State.status_getLsbD, hone, hhigh]

/-- Settles O8: the word of NOP, and its effect. -/
theorem nopChangesNothing : Obligations.NopChangesNothing :=
  ⟨decodeCmd_encodeCmd (i := .nop) rfl rfl, fun _ => rfl⟩

/-- Settles O10: such lengths select the variant, and the construction leaves cur at 0. -/
theorem setupBuildsTheInstance : Obligations.SetupBuildsTheInstance := by
  intro v s
  refine ⟨_, rfl, genPass_cur .., ?_⟩
  rw [← construct_eq]
  exact exec_setup_klenOf v s

/-- Settles O15: the word of CLRERR, its effect, and an error raised with ERR = 0. -/
theorem clearErrorRearmsTheCode : Obligations.ClearErrorRearmsTheCode :=
  ⟨decodeCmd_encodeCmd (i := .clrerr) rfl rfl, fun _ => ⟨rfl, State.raise_first rfl⟩⟩

/-- Settles O40: the bytes give back the transaction, and the host's record of it is `hostAfter`. -/
theorem stepRunsTheDecodedTransaction : Obligations.StepRunsTheDecodedTransaction := by
  intro s t rest i hprog hdecode
  have hi : decodeTransaction t = i := Except.ok.inj ((decode_bytesOfTransaction t).symm.trans hdecode)
  rw [step_transaction hprog, hi, withProgram_eq_setProgram, transact]
  refine if_congr Iff.rfl rfl ?_
  cases exec i (s.setProgram rest) with
  | next u => exact congrArg Host.Outcome.next (State.hostAfter_eq u i)
  | fault r => rfl
  | refused r => rfl

end Sys2Proof.Proofs
end

section
/-! SUPPORT. Runs of several steps (20_memory.md R58), the host's own transactions as steps, the driver's disposal
(45_stream_driver.md R206) and APPLY_KEYSTREAM (R201, R202). -/

namespace Sys2Proof.Machine

/-! ## Runs of several steps -/

/-- Some steps lead from one state to the other. -/
def Steps : State → State → Prop := Relation.ReflTransGen fun s t => step s = .next t

theorem Steps.refl (s : State) : Steps s s := Relation.ReflTransGen.refl

theorem Steps.trans {s t u : State} (hst : Steps s t) (htu : Steps t u) : Steps s u :=
  Relation.ReflTransGen.trans hst htu

theorem Steps.of_step {s t : State} (h : step s = .next t) : Steps s t := Relation.ReflTransGen.single h

theorem Steps.head {s t u : State} (hst : step s = .next t) (htu : Steps t u) : Steps s u :=
  Relation.ReflTransGen.head hst htu

/-- The first of some steps that complete. -/
theorem core_run_succ_next {k : Nat} {s t : State} (h : Sys2Proof.core.run (k + 1) s = .next t) :
    ∃ u, step s = .next u ∧ Sys2Proof.core.run k u = .next t := by
  cases hstep : step s with
  | next u => exact ⟨u, rfl, (core_run_succ hstep).symm.trans h⟩
  | fault r => simp [Host.Core.run, show Sys2Proof.core.step s = .fault r from hstep] at h
  | refused r => simp [Host.Core.run, show Sys2Proof.core.step s = .refused r from hstep] at h

/-- Some steps, as the number of them. -/
theorem steps_iff {s t : State} : Steps s t ↔ ∃ k, Sys2Proof.core.run k s = .next t := by
  constructor
  · intro h
    induction h using Relation.ReflTransGen.head_induction_on with
    | refl => exact ⟨0, rfl⟩
    | head hstep _ ih =>
      obtain ⟨k, hk⟩ := ih
      exact ⟨k + 1, (core_run_succ hstep).trans hk⟩
  · rintro ⟨k, hk⟩
    induction k generalizing s with
    | zero => cases hk; exact .refl _
    | succ k ih =>
      obtain ⟨u, hstep, hrest⟩ := core_run_succ_next hk
      exact .head hstep (ih hrest)

/-- Some steps keep the invariant. -/
theorem Steps.keeps_inv {s t : State} (h : Steps s t) (hs : s.Inv) : t.Inv := by
  induction h with
  | refl => exact hs
  | tail _ hstep ih => exact step_keeps_inv ih hstep

/-! ## The host's own transactions -/

@[simp] theorem State.setProgram_self (s : State) : s.setProgram s.host.program = s := rfl

theorem State.setProgram_of_program_eq {s : State} {p : List HostEvent} (h : s.host.program = p) :
    s.setProgram p = s := h ▸ s.setProgram_self

/-- R15: a step on what issues an instruction is the transaction of that instruction. -/
theorem step_issue {i : Instr} (hwf : i.wellFormed = true) (s : State) (rest : List HostEvent) :
    step (s.setProgram (issue i :: rest)) = transact i (s.setProgram rest) := by
  have hprog : (s.setProgram (issue i :: rest)).host.program = .transaction (encodeTransaction i) :: rest := rfl
  rw [step_transaction hprog, transact_issued hwf, State.setProgram_setProgram]

/-- R259: an instruction that constructs nothing is never issued too early. -/
theorem State.hostFault_of_setupVariant {i : Instr} (h : setupVariant i = none) (s : State) :
    s.hostFault i = false := by
  rw [State.hostFault, Staged.tooEarly, h]
  exact Bool.and_false _

/-! ## Disposal -/

/-- R206, R182: the state after a disposal: the block as after ZEROIZE, TB overwritten and nothing staged. -/
def State.disposed (s : State) : State :=
  { s with
    inst := .zero, key := Vector.replicate 8 0, iv := Vector.replicate 4 0, ready := false, variant := .v256
    host := { s.host with tb := Vector.replicate 128 0, staged := .empty } }

/-- R182: the transaction of ZEROIZE completes for every host. -/
theorem transact_zeroize (s : State) :
    transact .zeroize s =
      .next (((s.setInst .zero).setReady false .v256).clearStaging.setStaged .empty) :=
  transact_of_exec (s.hostFault_of_setupVariant rfl) rfl

/-- R206: a step that disposes, and the ZEROIZE it puts on the port. -/
theorem core_run_driverDispose {s u : State} (h : step s = driverDispose u) (m : Nat) :
    Sys2Proof.core.run (m + 2) s = Sys2Proof.core.run m u.disposed := by
  have hzeroize : step ((u.setTb (Vector.replicate 128 0)).issueFirst [issue .zeroize]) = .next u.disposed :=
    (step_issue (i := .zeroize) rfl (u.setTb (Vector.replicate 128 0)) u.host.program).trans (transact_zeroize _)
  exact (core_run_succ h).trans (core_run_succ hzeroize)

/-- R205: a length above 255 is an early error, which disposes. -/
theorem driverConstruct_of_long {key iv : List Byte} (h : 255 < key.length ∨ 255 < iv.length) (s : State) :
    driverConstruct key iv s = driverDispose (s.setReport .invalidLength) := if_pos h

/-! ## APPLY_KEYSTREAM byte by byte -/

/-- R201: the first byte of a call that starts at `buf` is done between the two states, whatever is left of the call
and of the program. -/
def ConsumesByte (buf : Nat) (s t : State) : Prop :=
  ∀ n rest, Steps (s.setProgram (.driver (.apply buf (n + 1)) :: rest))
    (t.setProgram (.driver (.apply (buf + 1) n) :: rest))

/-- R201: the driver fetches a block between the two states, whatever the call and the rest of the program. -/
def FetchesBlock (s t : State) : Prop :=
  ∀ buf n rest, Steps (s.setProgram (.driver (.apply buf (n + 1)) :: rest))
    (t.setProgram (.driver (.apply buf (n + 1)) :: rest))

/-- R201: with a byte in the tail, one step. -/
theorem consumesByte_of_tail {s : State} (hconsume : s.host.report.mayConsume = true) (htp : s.host.tp.val < 128)
    (buf : Nat) : ConsumesByte buf s (xorByte buf ⟨s.host.tp.val, htp⟩ s) := fun _ rest =>
  .of_step ((step_setProgram_driver ..).trans (driverApply_byte (s := s.setProgram rest) hconsume htp))

/-- R201: a block fetched first. -/
theorem FetchesBlock.consumesByte {s t u : State} {buf : Nat} (hfetch : FetchesBlock s t)
    (hbyte : ConsumesByte buf t u) : ConsumesByte buf s u := fun n rest =>
  (hfetch buf n rest).trans (hbyte n rest)

/-- R201: with nothing left of a call, it ends. -/
theorem step_apply_zero (s : State) (buf : Nat) (rest : List HostEvent) :
    step (s.setProgram (.driver (.apply buf 0) :: rest)) = .next (s.setProgram rest) :=
  (step_setProgram_driver ..).trans (driverApply_zero buf _)

/-- R204: a driver that may not consume keystream ends a call at once. -/
theorem step_apply_of_not_mayConsume {s : State} (h : s.host.report.mayConsume = false) (buf len : Nat)
    (rest : List HostEvent) :
    step (s.setProgram (.driver (.apply buf len) :: rest)) = .next (s.setProgram rest) :=
  (step_setProgram_driver ..).trans (driverApply_unconfirmed (s := s.setProgram rest) h)

/-- R201: the first `n` bytes of a call, by what holds after each number of bytes. -/
theorem exists_steps_apply {R : Nat → State → Prop} {buf : Nat}
    (hbyte : ∀ p s, R p s → ∃ t, ConsumesByte (buf + p) s t ∧ R (p + 1) t) {s : State} (hs : R 0 s) (n : Nat) :
    ∃ t, R n t ∧ ∀ b rest, Steps (s.setProgram (.driver (.apply buf (n + b)) :: rest))
      (t.setProgram (.driver (.apply (buf + n) b) :: rest)) := by
  induction n with
  | zero => exact ⟨s, hs, fun b rest => by rw [Nat.zero_add]; exact .refl _⟩
  | succ n ih =>
    obtain ⟨u, hu, hrun⟩ := ih
    obtain ⟨t, hlast, ht⟩ := hbyte n u hu
    refine ⟨t, ht, fun b rest => ?_⟩
    rw [Nat.add_right_comm n 1 b]
    exact (hrun (b + 1) rest).trans (hlast b rest)

/-! ## A call from any state -/

/-- R178, R201: a read of KSOUT completes and keeps the invariant, with READY = 1 or 0. -/
theorem State.Inv.exists_rdKsout {s : State} (hs : s.Inv) :
    ∃ (u : State) (w : Word64), u.Inv ∧ u.host = { s.host with returned := w :: s.host.returned } ∧
      ∀ p, exec .rdKsout (s.setProgram p) = .next (u.setProgram p) := by
  cases hready : s.ready with
  | true =>
    obtain ⟨w, y, htake⟩ := exists_takeWord_of_cur_lt Config.active hs.cursor
    exact ⟨(s.setInst y).returns w, w, exec_keeps_inv hs (exec_rdKsout_of_takeWord hready htake), rfl,
      fun p => exec_rdKsout_of_takeWord (s := s.setProgram p) hready htake⟩
  | false =>
    refine ⟨(s.raise .notReady).returns 0, 0, exec_keeps_inv hs (exec_rdKsout_of_not_ready hready), ?_, fun p => ?_⟩
    · rw [State.raise_eq]; rfl
    · rw [exec_rdKsout_of_not_ready (s := s.setProgram p) hready, State.raise_eq, State.raise_eq]; rfl

/-- R161: the words of some slots are fetched from every state that meets the invariant. -/
theorem State.Inv.exists_fetchEvents {s : State} (hs : s.Inv) (js : List (Fin 16)) :
    ∃ u : State, u.Inv ∧ u.host.report = s.host.report ∧
      ∀ rest, Steps (s.setProgram (fetchEvents js ++ rest)) (u.setProgram rest) := by
  induction js generalizing s with
  | nil => exact ⟨s, hs, rfl, fun rest => .refl _⟩
  | cons j js ih =>
    obtain ⟨u, w, hu, hhost, hexec⟩ := hs.exists_rdKsout
    obtain ⟨t, ht, hreport, hrun⟩ := ih (hu.setTb (putWord u.host.tb j w))
    refine ⟨t, ht, hreport.trans (by rw [State.setTb_host_report, hhost]), fun rest => ?_⟩
    have hreturned : (u.setProgram (fetchEvents js ++ rest)).host.returned = w :: s.host.returned := by
      rw [State.setProgram_host_returned, hhost]
    have hput : step (u.setProgram (.driver (.takeWord j) :: (fetchEvents js ++ rest))) =
        .next ((u.setTb (putWord u.host.tb j w)).setProgram (fetchEvents js ++ rest)) :=
      (step_setProgram_driver ..).trans (driverTakeWord_cons hreturned)
    exact .head (step_issue_rdKsout (hexec _)) (.head hput (hrun rest))

/-- R201: with the tail empty, a block is fetched from every state that meets the invariant. -/
theorem State.Inv.exists_fetchesBlock {s : State} (hs : s.Inv) (hconsume : s.host.report.mayConsume = true)
    (htp : s.host.tp = 128) :
    ∃ t, FetchesBlock s t ∧ t.Inv ∧ t.host.report.mayConsume = true ∧ t.host.tp.val < 128 := by
  obtain ⟨u, hu, hreport, hrun⟩ := hs.exists_fetchEvents laneOrder
  refine ⟨u.setTp 0, fun buf n rest => ?_, hu.setTp 0, hreport ▸ hconsume, Nat.zero_lt_succ _⟩
  have hissue := (step_setProgram_driver s (.apply buf (n + 1)) rest).trans
    (driverApply_fetch (s := s.setProgram rest) (buf := buf) (n := n) hconsume htp)
  have hblock := hrun (.driver .rewind :: .driver (.apply buf (n + 1)) :: rest)
  have hrewind : step (u.setProgram (.driver .rewind :: .driver (.apply buf (n + 1)) :: rest)) =
      .next ((u.setTp 0).setProgram (.driver (.apply buf (n + 1)) :: rest)) := step_setProgram_driver ..
  refine .head hissue (.trans ?_ (.of_step hrewind))
  simpa [State.issueFirst, nextBlockEvents_eq] using hblock

/-- R201: a byte of a call, from every state that meets the invariant; a block is fetched first where the tail is
empty. -/
theorem State.Inv.exists_consumesByte {s : State} (hs : s.Inv) (hconsume : s.host.report.mayConsume = true)
    (buf : Nat) : ∃ t, ConsumesByte buf s t ∧ t.Inv ∧ t.host.report.mayConsume = true := by
  by_cases htp : s.host.tp.val < 128
  · exact ⟨_, consumesByte_of_tail hconsume htp buf, hs.xorByte buf _, hconsume⟩
  · have hempty : s.host.tp = 128 := Fin.ext (show s.host.tp.val = 128 by omega)
    obtain ⟨u, hfetch, hu, hconsume', htp'⟩ := hs.exists_fetchesBlock hconsume hempty
    exact ⟨_, hfetch.consumesByte (consumesByte_of_tail hconsume' htp' buf), hu.xorByte buf _, hconsume'⟩

/-- R201: the first `n` bytes of a call of any greater length, from every state that meets the invariant. -/
theorem State.Inv.exists_steps_apply {s : State} (hs : s.Inv) (hconsume : s.host.report.mayConsume = true)
    (buf n : Nat) :
    ∃ t : State, (t.Inv ∧ t.host.report.mayConsume = true) ∧
      ∀ b rest, Steps (s.setProgram (.driver (.apply buf (n + b)) :: rest))
        (t.setProgram (.driver (.apply (buf + n) b) :: rest)) :=
  Machine.exists_steps_apply (R := fun _ u => u.Inv ∧ u.host.report.mayConsume = true)
    (fun p _ ⟨hu, hc⟩ => hu.exists_consumesByte hc (buf + p)) ⟨hs, hconsume⟩ n

/-! ## A call on a fresh block -/

/-- R123: the keystream after a refill is the keystream from word 16 on. -/
theorem streamWord_genPass (x : CipherInstance) (j : Nat) :
    Claims.streamWord (genPass Config.active x) j = Claims.streamWord x (j + 16) := by
  simp [Claims.streamWord, Nat.add_div_right]

theorem streamByte_genPass (x : CipherInstance) (q : Nat) :
    Claims.streamByte (genPass Config.active x) q = Claims.streamByte x (q + 128) := by
  have hdiv : (q + 128) / 8 = q / 8 + 16 := by omega
  have hmod : (q + 128) % 8 = q % 8 := by omega
  rw [Claims.streamByte, Claims.streamByte, streamWord_genPass, hdiv, hmod]

/-- READY = 1 with cur = 0, so that a block is fetched from its first word, and a driver that may consume keystream,
with its buffer in canonical form. -/
structure State.Streams (s : State) : Prop where
  ready : s.ready = true
  cursor : s.inst.cur = 0
  consume : s.host.report.mayConsume = true
  memory : s.host.mem.wf = true

/-- R201: the keystream byte that byte `q` of the next call meets: first those left in the tail, then the block's. -/
def State.upcomingByte (s : State) (q : Nat) : Byte :=
  if h : s.host.tp.val + q < 128 then s.host.tb.get ⟨s.host.tp.val + q, h⟩
  else Claims.streamByte s.inst (s.host.tp.val + q - 128)

theorem State.upcomingByte_of_tail {s : State} {q : Nat} (h : s.host.tp.val + q < 128) :
    s.upcomingByte q = s.host.tb.get ⟨s.host.tp.val + q, h⟩ := dif_pos h

theorem State.upcomingByte_of_block {s : State} {q : Nat} (h : ¬ s.host.tp.val + q < 128) :
    s.upcomingByte q = Claims.streamByte s.inst (s.host.tp.val + q - 128) := dif_neg h

/-- R200: with the tail empty, the bytes to come are those of the keystream. -/
theorem State.upcomingByte_of_empty {s : State} (h : s.host.tp = 128) (q : Nat) :
    s.upcomingByte q = Claims.streamByte s.inst q := by
  have htp : s.host.tp.val = 128 := by rw [h]; rfl
  rw [State.upcomingByte_of_block (by omega), htp, Nat.add_sub_cancel_left]

/-- R161, R201: the state in which a whole block has been fetched. -/
def State.afterBlock (s : State) : State := (s.afterFetchedWords 16).setTp 0

theorem State.afterBlock_inst (s : State) : s.afterBlock.inst = genPass Config.active s.inst :=
  s.inst.afterWords_sixteen

theorem State.afterBlock_host_tb (s : State) : s.afterBlock.host.tb = tailAfterWords s.host.tb s.inst 16 := rfl

@[simp] theorem State.afterBlock_host_tp (s : State) : s.afterBlock.host.tp = 0 := rfl
@[simp] theorem State.afterBlock_host_mem (s : State) : s.afterBlock.host.mem = s.host.mem := rfl

/-- R201: fetching a block does not change the bytes to come. -/
theorem State.upcomingByte_afterBlock {s : State} (h : s.host.tp = 128) (q : Nat) :
    s.afterBlock.upcomingByte q = s.upcomingByte q := by
  have hplace : s.afterBlock.host.tp.val + q = q := Nat.zero_add q
  rw [State.upcomingByte_of_empty h]
  by_cases hq : q < 128
  · have hword : q / 8 < 16 := by omega
    rw [State.upcomingByte_of_tail (hplace.symm ▸ hq), State.afterBlock_host_tb, tailAfterWords_get]
    simp only [hplace, hword, if_true]
  · rw [State.upcomingByte_of_block (hplace.symm ▸ hq), State.afterBlock_inst, streamByte_genPass, hplace,
      Nat.sub_add_cancel (by omega)]

section
variable {s : State} (hs : s.Streams)
include hs

/-- R151: the refill comes with the last word of a block, so cur is 0 again. -/
theorem State.Streams.afterBlock : s.afterBlock.Streams where
  ready := hs.ready
  cursor := by rw [State.afterBlock_inst, genPass_cur]
  consume := hs.consume
  memory := hs.memory

theorem State.Streams.xorByte (buf : Nat) (tp : Fin 128) : (xorByte buf tp s).Streams where
  ready := hs.ready
  cursor := hs.cursor
  consume := hs.consume
  memory := Memory.writeByte_wf hs.memory _ _

/-- R201: with the tail empty, a block is fetched. -/
theorem State.Streams.fetchesBlock (htp : s.host.tp = 128) : FetchesBlock s s.afterBlock := fun buf n rest =>
  steps_iff.2 ⟨34, core_run_apply_fetch (s := s.setProgram (.driver (.apply buf (n + 1)) :: rest))
    hs.ready hs.cursor htp hs.consume rfl 0⟩

end

/-- R201: what one byte of a call leaves behind. -/
structure XorsByte (buf : Nat) (s t : State) : Prop where
  streams : t.Streams
  upcoming : ∀ q, t.upcomingByte q = s.upcomingByte (q + 1)
  memory : t.host.mem = s.host.mem.writeByte buf (s.host.mem.readByte buf ^^^ s.upcomingByte 0)

/-- R201: a byte of the tail is used and dropped. -/
theorem State.Streams.xorsByte_of_tail {s : State} (hs : s.Streams) (htp : s.host.tp.val < 128) (buf : Nat) :
    XorsByte buf s (Machine.xorByte buf ⟨s.host.tp.val, htp⟩ s) where
  streams := hs.xorByte buf _
  upcoming q := by
    have hnext : (Machine.xorByte buf ⟨s.host.tp.val, htp⟩ s).host.tp.val + q = s.host.tp.val + (q + 1) :=
      (Nat.add_assoc _ 1 q).trans (by rw [Nat.add_comm 1 q])
    simp only [State.upcomingByte, hnext]
    rfl
  memory := by rw [State.upcomingByte_of_tail (by simpa using htp)]; rfl

/-- R201: every byte of a call on a fresh block, a block being fetched first where the tail is empty. -/
theorem State.Streams.exists_consumesByte {s : State} (hs : s.Streams) (buf : Nat) :
    ∃ t, ConsumesByte buf s t ∧ XorsByte buf s t := by
  by_cases htp : s.host.tp.val < 128
  · exact ⟨_, consumesByte_of_tail hs.consume htp buf, hs.xorsByte_of_tail htp buf⟩
  · have hempty : s.host.tp = 128 := Fin.ext (show s.host.tp.val = 128 by omega)
    have htp' : s.afterBlock.host.tp.val < 128 := Nat.zero_lt_succ _
    obtain ⟨hstreams, hupcoming, hmem⟩ := hs.afterBlock.xorsByte_of_tail htp' buf
    refine ⟨_, (hs.fetchesBlock hempty).consumesByte (consumesByte_of_tail hs.afterBlock.consume htp' buf),
      hstreams, fun q => ?_, ?_⟩
    · rw [hupcoming, State.upcomingByte_afterBlock hempty]
    · rw [hmem, State.upcomingByte_afterBlock hempty, State.afterBlock_host_mem]

/-- R202: what the first `p` bytes of a call at `buf` leave of a state, whose keystream they are XORed with. -/
structure XorsBytes (buf : Nat) (s : State) (p : Nat) (t : State) : Prop where
  streams : t.Streams
  upcoming : ∀ q, t.upcomingByte q = s.upcomingByte (p + q)
  inside : ∀ q, q < p → t.host.mem.readByte (buf + q) = s.host.mem.readByte (buf + q) ^^^ s.upcomingByte q
  outside : ∀ a, a < buf ∨ buf + p ≤ a → t.host.mem.readByte a = s.host.mem.readByte a

theorem State.Streams.xorsBytes_zero {s : State} (hs : s.Streams) (buf : Nat) : XorsBytes buf s 0 s where
  streams := hs
  upcoming q := by rw [Nat.zero_add]
  inside q hq := absurd hq (Nat.not_lt_zero q)
  outside _ _ := rfl

/-- R202: one byte more. -/
theorem XorsBytes.succ {buf p : Nat} {s t u : State} (h : XorsBytes buf s p t) (hbyte : XorsByte (buf + p) t u) :
    XorsBytes buf s (p + 1) u := by
  have hread : ∀ a, u.host.mem.readByte a =
      if a = buf + p then s.host.mem.readByte (buf + p) ^^^ s.upcomingByte p else t.host.mem.readByte a := fun a => by
    rw [hbyte.memory, Memory.readByte_writeByte h.streams.memory, h.upcoming, Nat.add_zero,
      h.outside _ (.inr le_rfl)]
  refine ⟨hbyte.streams, fun q => ?_, fun q hq => ?_, fun a ha => ?_⟩
  · rw [hbyte.upcoming, h.upcoming, Nat.add_right_comm, Nat.add_assoc]
  · rw [hread]
    by_cases hlast : q = p
    · rw [hlast, if_pos rfl]
    · rw [if_neg (by omega), h.inside q (by omega)]
  · rw [hread, if_neg (by omega), h.outside a (by omega)]

/-- R202: a whole call on a fresh block. -/
theorem State.Streams.exists_steps_apply {s : State} (hs : s.Streams) (buf n : Nat) (rest : List HostEvent) :
    ∃ t, XorsBytes buf s n t ∧
      Steps (s.setProgram (.driver (.apply buf n) :: rest)) (t.setProgram rest) := by
  obtain ⟨t, ht, hrun⟩ := Machine.exists_steps_apply (R := XorsBytes buf s) (buf := buf)
    (fun p u hu => by
      obtain ⟨v, hconsumes, hbyte⟩ := hu.streams.exists_consumesByte (buf + p)
      exact ⟨v, hconsumes, hu.succ hbyte⟩) (hs.xorsBytes_zero buf) n
  exact ⟨t, ht, (hrun 0 rest).trans (.of_step (step_apply_zero ..))⟩

end Sys2Proof.Machine
end

section
/-! SUPPORT. Which transactions are a successful SETUP (44_host_commands.md R181), several writes one after the other
(20_memory.md R54), the driver's construction and its check of STATUS (45_stream_driver.md R204). -/

namespace Sys2Proof.Machine

/-! ## Which transactions are a successful SETUP -/

/-- R120: the lengths of a variant are the only ones that select it. -/
theorem variantOfLengths_eq_some_iff {klen ivlen : BitVec 8} {v : Variant} :
    variantOfLengths klen ivlen = some v ↔ klen = Claims.klenOf v ∧ ivlen = 32 := by
  rw [variantOfLengths_eq_some, and_comm]
  cases v <;> simp [Claims.klenOf]

/-- R75, R181: on the port, only a WR CMD with the word of a SETUP with valid lengths constructs S, R and G. -/
theorem setupVariant_decodeTransaction {t : Transaction} {v : Variant} :
    setupVariant (decodeTransaction t) = some v ↔
      ∃ w, decodeTransaction t = .wrCmd w ∧ decodeCmd w = .setup (Claims.klenOf v) 32 := by
  rw [setupVariant_eq_some]
  constructor
  · rintro ⟨a, b, heff, hlengths⟩
    obtain ⟨rfl, rfl⟩ := variantOfLengths_eq_some_iff.1 hlengths
    have hformat := decodeTransaction_format t
    cases hi : decodeTransaction t with
    | wrCmd w => rw [hi] at heff; exact ⟨w, rfl, heff⟩
    | setup _ _ => rw [hi] at hformat; cases hformat
    | _ => rw [hi] at heff; cases heff
  · rintro ⟨w, hi, hd⟩
    exact ⟨_, _, by rw [hi]; exact hd, variantOfLengths_klenOf v⟩

/-- R258, R259: after a SETUP nothing is staged. -/
theorem Staged.after_of_setup {i : Instr} {a b : BitVec 8} (h : effectOf i = .setup a b) (g : Staged) :
    g.after i = .empty := by
  rw [Staged.after, h]

/-- R200: a transaction that constructs nothing leaves tp and the driver's report as they are. -/
theorem transact_keeps_tail {i : Instr} (hi : setupVariant i = none) {s t : State} (h : transact i s = .next t) :
    t.host.tp = s.host.tp ∧ t.host.report = s.host.report := by
  obtain ⟨_, u, hexec, rfl⟩ := transact_next h
  have hhost : u.host.tp = s.host.tp ∧ u.host.report = s.host.report := by
    rcases exec_host_cases hexec with hhost | ⟨_, hhost⟩ <;> rw [hhost] <;> exact ⟨rfl, rfl⟩
  rw [State.hostAfter_host_tp, State.hostAfter_host_report, hi]
  exact hhost

/-! ## Writing several words -/

/-- Some writes to an array, one after the other: each a value and its place. -/
def setAll {α : Type} {n : Nat} (x : Vector α n) (ps : List (α × Fin n)) : Vector α n :=
  ps.foldl (fun y p => y.set p.2.val p.1 p.2.isLt) x

/-- What a place holds after the writes when all that is written to it is one value. -/
theorem setAll_get {α : Type} {n : Nat} {ps : List (α × Fin n)} {i : Fin n} {a : α}
    (hall : ∀ b, (b, i) ∈ ps → b = a) {x : Vector α n} (h : x.get i = a ∨ ∃ b, (b, i) ∈ ps) :
    (setAll x ps).get i = a := by
  induction ps generalizing x with
  | nil => simpa [setAll] using h
  | cons p ps ih =>
    refine ih (fun b hb => hall b (List.mem_cons_of_mem _ hb)) ?_
    by_cases hi : p.2 = i
    · subst hi
      exact .inl (by simpa [Vector.get_eq_getElem] using hall p.1 List.mem_cons_self)
    · have hval : p.2.val ≠ i.val := fun e => hi (Fin.ext e)
      refine h.imp (fun hx => ?_) fun ⟨b, hb⟩ => ⟨b, (List.mem_cons.1 hb).resolve_left fun e => hi ?_⟩
      · simpa [Vector.get_eq_getElem, Vector.getElem_set_ne, hval] using hx
      · rw [← e]

/-- R54: the words that some bytes make, each with its slot, as far as there are slots. -/
def slotWords (n : Nat) (bs : List Byte) : List (Word64 × Fin n) := (wordsLe bs).zip (List.finRange n)

/-- R54: slot `i` gets word `i`. -/
theorem mem_slotWords {n : Nat} {bs : List Byte} {w : Word64} {i : Fin n} :
    (w, i) ∈ slotWords n bs ↔ (wordsLe bs)[i.val]? = some w := by
  simp only [slotWords, List.mem_iff_getElem?, List.getElem?_zip_eq_some]
  constructor
  · rintro ⟨k, hw, hi⟩
    obtain ⟨hk, hki⟩ := List.getElem?_eq_some_iff.1 hi
    have hval : i.val = k := by rw [← hki]; simp
    rw [hval, hw]
  · intro hw
    exact ⟨i.val, hw, by simp⟩

/-- R54: eight bytes make a word. -/
theorem wordsLe_length (bs : List Byte) : (wordsLe bs).length = bs.length / 8 := by
  induction bs using wordsLe.induct with
  | case1 b0 b1 b2 b3 b4 b5 b6 b7 rest ih =>
    simp only [wordsLe, List.length_cons, ih]
    omega
  | case2 bs h =>
    have hshort : bs.length < 8 := by
      iterate 8
        rcases bs with _ | ⟨b, bs⟩
        · simp
      exact (h _ _ _ _ _ _ _ _ bs rfl).elim
    rw [wordsLe, List.length_nil, Nat.div_eq_of_lt hshort]
    exact h

/-! ## The driver's construction -/

/-- R24, R259: the state after some writes to KEY: the words, and the host's record of them. -/
def State.afterKeyWrites (s : State) (ps : List (Word64 × Fin 8)) : State :=
  { s with
    key := setAll s.key ps
    host := { s.host with
      staged := { s.host.staged with key := setAll s.host.staged.key (ps.map fun p => (true, p.2)) } } }

/-- R25, R259: the state after some writes to IV: the words, and the host's record of them. -/
def State.afterIvWrites (s : State) (ps : List (Word64 × Fin 4)) : State :=
  { s with
    iv := setAll s.iv ps
    host := { s.host with
      staged := { s.host.staged with iv := setAll s.host.staged.iv (ps.map fun p => (true, p.2)) } } }

/-- R172: a WR KEY that the host issues. -/
theorem step_issue_wrKey (s : State) (p : Word64 × Fin 8) (rest : List HostEvent) :
    step (s.setProgram (issue (.wrKey p.2 p.1) :: rest)) = .next ((s.afterKeyWrites [p]).setProgram rest) :=
  (step_issue rfl s rest).trans
    (transact_of_exec (u := (s.setProgram rest).setKey p.2 p.1) (State.hostFault_of_setupVariant rfl _) rfl)

/-- R172: some WR KEY that the host issues, one step each. -/
theorem core_run_keyWrites (s : State) (ps : List (Word64 × Fin 8)) (rest : List HostEvent) (m : Nat) :
    Sys2Proof.core.run (m + ps.length) (s.setProgram (ps.map (fun p => issue (.wrKey p.2 p.1)) ++ rest)) =
      Sys2Proof.core.run m ((s.afterKeyWrites ps).setProgram rest) := by
  induction ps generalizing s with
  | nil => rfl
  | cons p ps ih => exact (core_run_succ (step_issue_wrKey s p _)).trans (ih (s.afterKeyWrites [p]))

/-- R173: a WR IV that the host issues. -/
theorem step_issue_wrIv (s : State) (p : Word64 × Fin 4) (rest : List HostEvent) :
    step (s.setProgram (issue (.wrIv p.2 p.1) :: rest)) = .next ((s.afterIvWrites [p]).setProgram rest) :=
  (step_issue rfl s rest).trans
    (transact_of_exec (u := (s.setProgram rest).setIv p.2 p.1) (State.hostFault_of_setupVariant rfl _) rfl)

/-- R173: some WR IV that the host issues, one step each. -/
theorem core_run_ivWrites (s : State) (ps : List (Word64 × Fin 4)) (rest : List HostEvent) (m : Nat) :
    Sys2Proof.core.run (m + ps.length) (s.setProgram (ps.map (fun p => issue (.wrIv p.2 p.1)) ++ rest)) =
      Sys2Proof.core.run m ((s.afterIvWrites ps).setProgram rest) := by
  induction ps generalizing s with
  | nil => rfl
  | cons p ps ih => exact (core_run_succ (step_issue_wrIv s p _)).trans (ih (s.afterIvWrites [p]))

/-- R204 step 1: the state after the driver's writes of the key words and the IV words. -/
def State.afterDriverWrites (s : State) (key iv : List Byte) : State :=
  (s.afterKeyWrites (slotWords 8 key)).afterIvWrites (slotWords 4 iv)

section
variable (s : State) (key iv : List Byte)

@[simp] theorem State.afterDriverWrites_inst : (s.afterDriverWrites key iv).inst = s.inst := rfl
@[simp] theorem State.afterDriverWrites_err : (s.afterDriverWrites key iv).err = s.err := rfl
@[simp] theorem State.afterDriverWrites_host_mem : (s.afterDriverWrites key iv).host.mem = s.host.mem := rfl

variable {s key iv}

/-- R54, R204: KEY[i] holds word `i` of the key bytes. -/
theorem State.afterDriverWrites_key {i : Fin 8} {w : Word64} (h : (wordsLe key)[i.val]? = some w) :
    rget (s.afterDriverWrites key iv).key i = w :=
  setAll_get (fun _ hb => Option.some.inj ((mem_slotWords.1 hb).symm.trans h)) (.inr ⟨w, mem_slotWords.2 h⟩)

/-- R54, R204: IV[j] holds word `j` of the IV bytes. -/
theorem State.afterDriverWrites_iv {j : Fin 4} {w : Word64} (h : (wordsLe iv)[j.val]? = some w) :
    rget (s.afterDriverWrites key iv).iv j = w :=
  setAll_get (fun _ hb => Option.some.inj ((mem_slotWords.1 hb).symm.trans h)) (.inr ⟨w, mem_slotWords.2 h⟩)

end

/-- R259: what has been given a word is marked as written. -/
theorem setAll_true_get {n : Nat} {ps : List (Word64 × Fin n)} {i : Fin n} {w : Word64} (h : (w, i) ∈ ps)
    (g : Vector Bool n) : (setAll g (ps.map fun p => (true, p.2))).get i = true := by
  refine setAll_get (fun b hb => ?_) (.inr ⟨true, List.mem_map.2 ⟨_, h, rfl⟩⟩)
  obtain ⟨_, _, hp⟩ := List.mem_map.1 hb
  exact (congrArg Prod.fst hp).symm

/-- R54: bytes for `k` words make word `i` for every `i` below `k`. -/
theorem exists_wordsLe_getElem? {bs : List Byte} {k i : Nat} (hlen : bs.length = 8 * k) (hi : i < k) :
    ∃ w, (wordsLe bs)[i]? = some w :=
  ⟨_, List.getElem?_eq_getElem (by rw [wordsLe_length]; omega)⟩

/-- R259: the driver writes all KW + 4 words of a variant whose lengths the bytes have. -/
theorem State.afterDriverWrites_complete {v : Variant} {key iv : List Byte}
    (hkey : key.length = 8 * Claims.keyWordsOf v) (hiv : iv.length = 32) (s : State) :
    (s.afterDriverWrites key iv).host.staged.complete v = true := by
  refine Staged.complete_iff.2 ⟨fun i hi => ?_, fun j => ?_⟩
  · have hlt : i.val < Claims.keyWordsOf v := by
      cases v with
      | v256 => exact hi rfl
      | v512 => exact i.isLt
    obtain ⟨w, hw⟩ := exists_wordsLe_getElem? hkey hlt
    exact setAll_true_get (mem_slotWords.2 hw) s.host.staged.key
  · obtain ⟨w, hw⟩ := exists_wordsLe_getElem? (bs := iv) (k := 4) hiv j.isLt
    exact setAll_true_get (mem_slotWords.2 hw) s.host.staged.iv

/-- R204: the SETUP that the driver issues for some key bytes and IV bytes. -/
def driverSetup (key iv : List Byte) : Instr :=
  .setup (BitVec.ofNat 8 key.length) (BitVec.ofNat 8 iv.length)

/-- R120, R204: the variant that the lengths of some bytes select, as far as the port can express the lengths. -/
theorem setupVariant_driverSetup {key iv : List Byte} (hkey : key.length ≤ 255) (hiv : iv.length ≤ 255)
    {v : Variant} :
    setupVariant (driverSetup key iv) = some v ↔ key.length = 8 * Claims.keyWordsOf v ∧ iv.length = 32 := by
  have heq : setupVariant (driverSetup key iv) =
      variantOfLengths (BitVec.ofNat 8 key.length) (BitVec.ofNat 8 iv.length) := rfl
  rw [heq, variantOfLengths_eq_some_iff]
  cases v <;> simp only [Claims.klenOf, Claims.keyWordsOf] <;> bv_omega

/-- R259: the driver never issues its SETUP too early. -/
theorem hostFault_driverSetup {key iv : List Byte} (hkey : key.length ≤ 255) (hiv : iv.length ≤ 255) (s : State) :
    (s.afterDriverWrites key iv).hostFault (driverSetup key iv) = false := by
  refine Bool.eq_false_iff.2 fun hfault => ?_
  obtain ⟨_, v, hv, hincomplete⟩ := State.hostFault_eq_true.1 hfault
  obtain ⟨hklen, hivlen⟩ := (setupVariant_driverSetup hkey hiv).1 hv
  rw [State.afterDriverWrites_complete hklen hivlen] at hincomplete
  cases hincomplete

/-- R204 step 2: the state after the driver's writes and its SETUP. Irreducible, so that comparing two states does not
run the SETUP; the lemmas below say what it is. -/
@[irreducible] def State.afterDriverSetup (s : State) (key iv : List Byte) : State :=
  (setupUnder Config.active (BitVec.ofNat 8 key.length) (BitVec.ofNat 8 iv.length)
    (s.afterDriverWrites key iv)).hostAfter (driverSetup key iv)

/-- SETUP does not see the events still to come. -/
theorem setupUnder_setProgram (c : Config) (klen ivlen : BitVec 8) (s : State) (p : List HostEvent) :
    setupUnder c klen ivlen (s.setProgram p) = (setupUnder c klen ivlen s).setProgram p := by
  cases h : variantOfLengths klen ivlen with
  | none => rw [setupUnder_of_invalid h, setupUnder_of_invalid h, State.raise_eq, State.raise_eq]; rfl
  | some v => rw [setupUnder_of_valid h, setupUnder_of_valid h]; rfl

theorem State.hostAfter_setProgram (s : State) (i : Instr) (p : List HostEvent) :
    (s.setProgram p).hostAfter i = (s.hostAfter i).setProgram p := by
  rw [State.hostAfter_eq, State.hostAfter_eq]
  rfl

/-- R204 step 2: the driver's SETUP, after its writes. -/
theorem step_issue_driverSetup {key iv : List Byte} (hkey : key.length ≤ 255) (hiv : iv.length ≤ 255) (s : State)
    (rest : List HostEvent) :
    step ((s.afterDriverWrites key iv).setProgram (issue (driverSetup key iv) :: rest)) =
      .next ((s.afterDriverSetup key iv).setProgram rest) := by
  have hfault : ((s.afterDriverWrites key iv).setProgram rest).hostFault (driverSetup key iv) = false :=
    hostFault_driverSetup hkey hiv s
  have hexec : exec (driverSetup key iv) ((s.afterDriverWrites key iv).setProgram rest) = .next (setupUnder
      Config.active (BitVec.ofNat 8 key.length) (BitVec.ofNat 8 iv.length)
      ((s.afterDriverWrites key iv).setProgram rest)) := rfl
  rw [step_issue rfl, transact_of_exec hfault hexec, setupUnder_setProgram, State.hostAfter_setProgram,
    State.afterDriverSetup]

/-- R177: a RD STATUS that the host issues. -/
theorem step_issue_rdStatus (s : State) (rest : List HostEvent) :
    step (s.setProgram (issue .rdStatus :: rest)) = .next ((s.returns s.status).setProgram rest) :=
  (step_issue rfl s rest).trans
    (transact_of_exec (u := (s.setProgram rest).returns s.status) (State.hostFault_of_setupVariant rfl _) rfl)

/-- R204: the driver's construction as far as the check of STATUS: one step to put its events before the program, one
for each word, one for SETUP and one for RD STATUS. -/
theorem core_run_construct {s : State} {key iv : List Byte} {rest : List HostEvent} (hkey : key.length ≤ 255)
    (hiv : iv.length ≤ 255) (hprog : s.host.program = .driver (.construct key iv) :: rest) (m : Nat) :
    Sys2Proof.core.run (m + 2 + (slotWords 4 iv).length + (slotWords 8 key).length + 1) s =
      Sys2Proof.core.run m (((s.afterDriverSetup key iv).returns (s.afterDriverSetup key iv).status).setProgram
        (.driver (.confirm (setupVariant (driverSetup key iv))) :: rest)) := by
  have hissue : step s = .next (s.setProgram (constructEvents key iv ++ rest)) := by
    rw [step_driver hprog]
    exact if_neg (by omega)
  have hevents : constructEvents key iv ++ rest =
      (slotWords 8 key).map (fun p => issue (.wrKey p.2 p.1)) ++
        ((slotWords 4 iv).map (fun p => issue (.wrIv p.2 p.1)) ++
          (issue (driverSetup key iv) :: issue .rdStatus ::
            .driver (.confirm (setupVariant (driverSetup key iv))) :: rest)) := by
    simp only [constructEvents, List.append_assoc]
    rfl
  rw [core_run_succ hissue, hevents, core_run_keyWrites, core_run_ivWrites]
  exact (core_run_succ (step_issue_driverSetup hkey hiv s _)).trans (core_run_succ (step_issue_rdStatus ..))

/-- R181, R204: after the driver's SETUP with lengths of a variant. -/
theorem State.afterDriverSetup_of_valid {key iv : List Byte} {v : Variant}
    (h : setupVariant (driverSetup key iv) = some v) (s : State) :
    (s.afterDriverSetup key iv).inst =
        construct Config.active v (s.afterDriverWrites key iv).key (s.afterDriverWrites key iv).iv s.inst ∧
      (s.afterDriverSetup key iv).ready = true ∧ (s.afterDriverSetup key iv).variant = v ∧
      (s.afterDriverSetup key iv).err = s.err := by
  rw [State.afterDriverSetup, setupUnder_of_valid h]
  simp

/-- R122, R226: ERR after the driver's SETUP with lengths of no variant. -/
theorem State.afterDriverSetup_err_of_invalid {key iv : List Byte} (h : setupVariant (driverSetup key iv) = none)
    (s : State) : (s.afterDriverSetup key iv).err = Claims.errAfter s 0x01 := by
  rw [State.afterDriverSetup, setupUnder_of_invalid h, State.hostAfter_err, State.clearStaging_err,
    State.raise_err]
  rfl

@[simp] theorem State.afterDriverSetup_host_mem (s : State) (key iv : List Byte) :
    (s.afterDriverSetup key iv).host.mem = s.host.mem := by
  simp [State.afterDriverSetup]

/-- R226: ERR is not 0 after an error. -/
theorem errAfter_ne_zero {code : BitVec 8} (h : code ≠ 0) (s : State) : Claims.errAfter s code ≠ 0 := by
  unfold Claims.errAfter
  split
  · exact h
  · assumption

/-- R204, R226: ERR after the driver's SETUP, where an error was recorded before it or a length is wrong. -/
theorem State.afterDriverSetup_err_of_bad {s : State} {key iv : List Byte} (hkey : key.length ≤ 255)
    (hiv : iv.length ≤ 255) (hbad : s.err ≠ 0 ∨ ¬((key.length = 32 ∨ key.length = 64) ∧ iv.length = 32)) :
    (s.afterDriverSetup key iv).err = Claims.errAfter s 0x01 := by
  cases hvariant : setupVariant (driverSetup key iv) with
  | none => exact s.afterDriverSetup_err_of_invalid hvariant
  | some v =>
    obtain ⟨hklen, hivlen⟩ := (setupVariant_driverSetup hkey hiv).1 hvariant
    have hlengths : (key.length = 32 ∨ key.length = 64) ∧ iv.length = 32 := by
      cases v <;> simp [hklen, hivlen, Claims.keyWordsOf]
    have hrecorded : s.err ≠ 0 := hbad.resolve_right (not_not_intro hlengths)
    obtain ⟨_, _, _, hkept⟩ := s.afterDriverSetup_of_valid hvariant
    rw [hkept, Claims.errAfter, if_neg hrecorded]

/-! ## The check of STATUS -/

/-- R29: READY as the host reads it. -/
@[simp] theorem statusReady_status (s : State) : statusReady s.status = s.ready := by
  rw [statusReady, State.status_getLsbD]
  simp

/-- R29: VARIANT as the host reads it. -/
@[simp] theorem statusVariant_status (s : State) : statusVariant s.status = s.variant.bit := by
  refine BitVec.eq_of_getLsbD_eq fun k hk => ?_
  have hzero : k = 0 := by omega
  rw [statusVariant, BitVec.getLsbD_extractLsb', State.status_getLsbD, Variant.bit_getLsbD]
  simp [hzero]

/-- R29: ERR as the host reads it. -/
@[simp] theorem statusErr_status (s : State) : statusErr s.status = s.err := by
  refine BitVec.eq_of_getLsbD_eq fun k hk => ?_
  have hone : 8 + k ≠ 1 := by omega
  simp [statusErr, hk, hone, State.status_getLsbD]

/-- R204 step 3: the STATUS value of a state confirms a construction of variant `v`. -/
theorem statusConfirms_status {s : State} {v : Variant} (hready : s.ready = true) (hvariant : s.variant = v)
    (herr : s.err = 0) : statusConfirms (some v) s.status = true := by
  simp [statusConfirms, hready, hvariant, herr]

/-- R204 step 3: with an error recorded no construction is confirmed. -/
theorem statusConfirms_status_of_err {s : State} (h : s.err ≠ 0) (expected : Option Variant) :
    statusConfirms expected s.status = false := by
  cases expected with
  | none => rfl
  | some x => rw [statusConfirms, statusErr_status, decide_eq_false h, Bool.and_false]

/-- R204 step 4: the check of a STATUS value that confirms the construction. -/
theorem step_confirm_of_confirms {s : State} {e : Option Variant} {v : Word64} (h : statusConfirms e v = true)
    (rest : List HostEvent) :
    step ((s.returns v).setProgram (.driver (.confirm e) :: rest)) =
      .next ((((s.returns v).setProgram rest).setTp 128).setReport .constructed) := by
  rw [step_setProgram_driver, driverStep, driverConfirm]
  simp [h]

/-- R204 step 3, R206: the check of a STATUS value that does not confirm it. -/
theorem step_confirm_of_not_confirms {s : State} {e : Option Variant} {v : Word64} (h : statusConfirms e v = false)
    (rest : List HostEvent) :
    step ((s.returns v).setProgram (.driver (.confirm e) :: rest)) =
      driverDispose (((s.returns v).setProgram rest).setReport (.notConfirmed v)) := by
  rw [step_setProgram_driver, driverStep, driverConfirm]
  simp [h, driverFail]

end Sys2Proof.Machine

/-! The statements of the family 45_stream_driver.md. -/

namespace Sys2Proof.Proofs

open Sys2Proof.Machine Sys2Proof.Claims

/-- Settles O49: the bytes to come of a driver with an empty tail are those of the keystream. -/
theorem applyXorsTheKeystream : Obligations.ApplyXorsTheKeystream := by
  intro s buf len rest hinv hready hcur htp hconsume hprog
  have hs : s.Streams := ⟨hready, hcur, hconsume, hinv.memory⟩
  obtain ⟨t, ht, hrun⟩ := hs.exists_steps_apply buf len rest
  rw [State.setProgram_of_program_eq hprog] at hrun
  obtain ⟨k, hk⟩ := steps_iff.1 hrun
  refine ⟨k, _, hk, rfl, fun p hp => ?_, ht.outside⟩
  rw [← State.upcomingByte_of_empty htp]
  exact ht.inside p hp

/-- Settles O50: the first call and the first bytes of the one call reach the same state, whatever is left to do. -/
theorem splitCallsEqualOneCall : Obligations.SplitCallsEqualOneCall := by
  intro s buf a b rest hs
  suffices h : ∃ t, t.host.program = rest ∧
      Steps (s.setProgram (.driver (.apply buf a) :: .driver (.apply (buf + a) b) :: rest)) t ∧
      Steps (s.setProgram (.driver (.apply buf (a + b)) :: rest)) t by
    obtain ⟨t, hprog, htwo, hone⟩ := h
    obtain ⟨k₁, hk₁⟩ := steps_iff.1 htwo
    obtain ⟨k₂, hk₂⟩ := steps_iff.1 hone
    exact ⟨k₁, k₂, t, hprog, hk₁, hk₂⟩
  cases hconsume : s.host.report.mayConsume with
  | false =>
    have hends := step_apply_of_not_mayConsume hconsume
    exact ⟨s.setProgram rest, rfl, .head (hends ..) (.of_step (hends ..)), .of_step (hends ..)⟩
  | true =>
    obtain ⟨u, ⟨hu, hconsume'⟩, hfirst⟩ := hs.exists_steps_apply hconsume buf a
    obtain ⟨t, _, hsecond⟩ := hu.exists_steps_apply hconsume' (buf + a) b
    have hlast : Steps (u.setProgram (.driver (.apply (buf + a) b) :: rest)) (t.setProgram rest) :=
      (hsecond 0 rest).trans (.of_step (step_apply_zero ..))
    refine ⟨t.setProgram rest, rfl, ?_, (hfirst b rest).trans hlast⟩
    exact (hfirst 0 _).trans (.head (step_apply_zero ..) hlast)

/-- Settles O51: both calls XOR the same keystream byte into each byte of the range. -/
theorem matchedInstancesUndoEachOther : Obligations.MatchedInstancesUndoEachOther := by
  intro s₁ s₂ buf len rest hinv₁ hinv₂ hready₁ hready₂ hinst hcur htp₁ htp₂ hconsume₁ hconsume₂
  obtain ⟨k₁, t₁, hrun₁, hprog₁, hinside₁, houtside₁⟩ :=
    applyXorsTheKeystream (s₁.setProgram (.driver (.apply buf len) :: rest)) buf len rest (hinv₁.setProgram _)
      hready₁ hcur htp₁ hconsume₁ rfl
  have hinv_t₁ : t₁.Inv := (steps_iff.2 ⟨k₁, hrun₁⟩).keeps_inv (hinv₁.setProgram _)
  obtain ⟨k₂, t₂, hrun₂, hprog₂, hinside₂, houtside₂⟩ :=
    applyXorsTheKeystream ((s₂.setMem t₁.host.mem).setProgram (.driver (.apply buf len) :: rest)) buf len rest
      ((hinv₂.setMem hinv_t₁.memory).setProgram _) hready₂ (hinst ▸ hcur) htp₂ hconsume₂ rfl
  refine ⟨k₁, t₁, hrun₁, hprog₁, k₂, t₂, hrun₂, hprog₂, fun a => ?_⟩
  by_cases hrange : buf ≤ a ∧ a < buf + len
  · obtain ⟨p, rfl⟩ := Nat.exists_eq_add_of_le hrange.1
    have hp : p < len := by omega
    have hsecond := hinside₂ p hp
    simp only [State.setProgram_host_mem, State.setMem_host_mem, hinside₁ p hp, State.setProgram_inst,
      State.setMem_inst, ← hinst] at hsecond
    rw [hsecond, BitVec.xor_assoc, BitVec.xor_self, BitVec.xor_zero]
  · have hout : a < buf ∨ buf + len ≤ a := by omega
    exact (houtside₂ a hout).trans (houtside₁ a hout)

/-- Settles O52: after the driver's SETUP, STATUS is that of the new construction, which the driver confirms. -/
theorem driverConstructsFromBytes : Obligations.DriverConstructsFromBytes := by
  intro v s key iv rest herr hkey hiv hprog
  have hkeyWords : key.length ≤ 255 := by cases v <;> simp [hkey, keyWordsOf]
  have hvariant := (setupVariant_driverSetup hkeyWords (by omega)).2 ⟨hkey, hiv⟩
  obtain ⟨hinst, hready, hvar, herr'⟩ := s.afterDriverSetup_of_valid hvariant
  have hconfirms := statusConfirms_status hready hvar (herr'.trans herr)
  have hsteps : keyWordsOf v + 8 = 1 + 2 + (slotWords 4 iv).length + (slotWords 8 key).length + 1 := by
    cases v <;> simp [slotWords, wordsLe_length, hkey, hiv, keyWordsOf]
  have hrun := core_run_construct hkeyWords (by omega) hprog 1
  rw [← hsteps, hvariant, core_run_succ (step_confirm_of_confirms hconfirms rest)] at hrun
  refine ⟨_, (s.afterDriverWrites key iv).key, (s.afterDriverWrites key iv).iv, hrun, fun i hi => ?_,
    fun j => ?_, hinst, hready, hvar, herr'.trans herr, rfl, rfl, rfl⟩
  · obtain ⟨w, hw⟩ := exists_wordsLe_getElem? hkey hi
    rw [State.afterDriverWrites_key hw, hw]
  · obtain ⟨w, hw⟩ := exists_wordsLe_getElem? (bs := iv) (k := 4) hiv j.isLt
    rw [State.afterDriverWrites_iv hw, hw]

/-- Settles O56: the host's part of the transaction of a SETUP with valid lengths, and of any other. -/
theorem successfulSetupDropsTheTail : Obligations.SuccessfulSetupDropsTheTail := by
  intro s t rest hprog
  rw [step_transaction hprog]
  refine ⟨fun w v hdecode hd hfault => ?_, fun hnone u hstep => ?_⟩
  · have hvariant : setupVariant (.wrCmd w) = some v :=
      hdecode ▸ setupVariant_decodeTransaction.2 ⟨w, hdecode, hd⟩
    have hfault' : (s.setProgram rest).hostFault (.wrCmd w) = false := hfault
    rw [hdecode, transact_of_exec hfault' (exec_of_setupVariant hvariant _)]
    refine ⟨_, rfl, ?_⟩
    simp [hvariant, Staged.after_of_setup (i := .wrCmd w) hd, DriverReport.mayConsume]
  · refine transact_keeps_tail (s := s.setProgram rest) (Option.eq_none_iff_forall_ne_some.2 fun v hv => ?_) hstep
    obtain ⟨w, hdecode, hd⟩ := setupVariant_decodeTransaction.1 hv
    exact hnone w v hdecode hd

/-- Settles O57: ERR is not 0 at the check of STATUS, either from before or from the driver's own SETUP. -/
theorem failedConstructionDisposes : Obligations.FailedConstructionDisposes := by
  refine ⟨fun s key iv rest hkey hiv hbad hprog => ?_, fun s buf len rest hreport hprog => ?_⟩
  · have herr := State.afterDriverSetup_err_of_bad hkey hiv hbad
    have hne : (s.afterDriverSetup key iv).err ≠ 0 := herr ▸ errAfter_ne_zero (by decide) s
    have hfails := step_confirm_of_not_confirms (s := s.afterDriverSetup key iv)
      (statusConfirms_status_of_err hne (setupVariant (driverSetup key iv))) rest
    have hrun := (core_run_construct hkey hiv hprog 2).trans (core_run_driverDispose hfails 0)
    exact ⟨_, _, _, hrun, rfl, rfl, rfl, rfl, rfl, rfl, rfl, herr, rfl, s.afterDriverSetup_host_mem key iv⟩
  · have hconsume : s.host.report.mayConsume = false := by
      rcases hreport with hreport | ⟨v, hreport⟩ <;> rw [hreport] <;> rfl
    rw [← State.setProgram_of_program_eq hprog]
    exact step_apply_of_not_mayConsume hconsume buf len rest

/-- Settles O53: such a length is an early error, and that is a disposal. -/
theorem driverRejectsLongLengths : Obligations.DriverRejectsLongLengths := fun _ _ _ _ hlong hprog =>
  core_run_driverDispose ((step_driver hprog).trans (driverConstruct_of_long hlong _)) 0

/-- Settles O54: a step of the driver and the ZEROIZE that it issues. -/
theorem disposalErasesBlockAndTail : Obligations.DisposalErasesBlockAndTail := fun _ _ hprog =>
  core_run_driverDispose (step_driver hprog) 0

end Sys2Proof.Proofs
end

section
/-! SUPPORT. What an instruction does to ERR and what raises an error of each kind (60_exceptions.md R221, R226, R227),
and what an error leaves as it is (R231). -/

namespace Sys2Proof.Machine

/-! ## What raises an error -/

/-- R221, R227: the cause of an error of each kind. UnsupportedPlatform has none (R223). -/
def ErrorKind.RaisedBy (i : Instr) (s : State) : ErrorKind → Prop
  | .invalidLength => ∃ a b, effectOf i = .setup a b ∧ variantOfLengths a b = none
  | .unsupportedPlatform => False
  | .notReady => i = .rdKsout ∧ s.ready = false
  | .illegalCommand => ∃ w, effectOf i = .reserved w

/-- R226, R231: an instruction raises an error of this kind, and leaves S, R, G, cur, READY and VARIANT. -/
structure Raises (i : Instr) (s : State) (e : ErrorKind) (t : State) : Prop where
  cause : e.RaisedBy i s
  err : t.err = (s.raise e).err
  inst : t.inst = s.inst
  ready : t.ready = s.ready
  variant : t.variant = s.variant

/-- R181: SETUP leaves ERR as it is or, under invalid lengths, raises InvalidLength. -/
theorem setupUnder_err_cases {i : Instr} {a b : BitVec 8} (heff : effectOf i = .setup a b) (c : Config) (s : State) :
    (setupUnder c a b s).err = s.err ∨ Raises i s .invalidLength (setupUnder c a b s) := by
  rcases setupUnder_cases c a b s with ⟨hlengths, heq⟩ | ⟨v, _, heq⟩ <;> rw [heq]
  · exact .inr ⟨⟨a, b, heff, hlengths⟩, rfl, s.raise_inst _, s.raise_ready _, s.raise_variant _⟩
  · exact .inl rfl

/-- All that an instruction can do to ERR (R221, R226): it leaves it, clears it or raises an error. -/
theorem exec_err_cases {i : Instr} {s t : State} (h : exec i s = .next t) :
    t.err = s.err ∨ (effectOf i = .clrerr ∧ t = s.clearErr) ∨ ∃ e, Raises i s e t := by
  rcases exec_next_cases h with rfl | ⟨_, _, _, rfl⟩ | ⟨_, _, _, rfl⟩ | ⟨_, _, rfl⟩ | ⟨hread, hready, rfl⟩ |
    ⟨_, _, _, _, _, rfl⟩ | ⟨_, _, heff, rfl⟩ | ⟨_, rfl⟩ | ⟨heff, rfl⟩ | ⟨w, heff, rfl⟩
  · exact .inl rfl
  · exact .inl rfl
  · exact .inl rfl
  · exact .inl rfl
  · exact .inr (.inr ⟨.notReady, ⟨hread, hready⟩, rfl, s.raise_inst _, s.raise_ready _, s.raise_variant _⟩)
  · exact .inl rfl
  · exact (setupUnder_err_cases heff _ s).imp_right fun hraises => .inr ⟨_, hraises⟩
  · exact .inl rfl
  · exact .inr (.inl ⟨heff, rfl⟩)
  · exact .inr (.inr ⟨.illegalCommand, ⟨w, heff⟩, rfl, s.raise_inst _, s.raise_ready _, s.raise_variant _⟩)

/-- R76: what has the effect of a reserved word is the WR CMD of a reserved word, unless it is that command itself. -/
theorem effectOf_eq_reserved {i : Instr} {w : Word64} (h : effectOf i = .reserved w) :
    i = .reserved w ∨ reservedWord w = true := by
  cases i with
  | wrCmd v =>
    have hdecode : decodeCmd v = .reserved w := h
    have hwf := decodeCmd_wellFormed v
    rw [hdecode] at hwf
    exact .inr hwf
  | reserved v => exact .inl h
  | _ => cases h

/-! ## Reserved words and reset -/

/-- R184, R225: a reserved word raises IllegalCommand as an instruction. -/
theorem exec_reserved (w : Word64) (s : State) :
    exec (.reserved w) s = .next { s with err := Claims.errAfter s 0x04 } :=
  congrArg Host.Outcome.next (State.raise_eq s .illegalCommand)

/-- R250: a step on a reset event is the block's reset. -/
theorem step_reset {s : State} {rest : List HostEvent} (h : s.host.program = .reset :: rest) :
    step s = .next (s.setProgram rest).resetBlock := by
  simp only [step, fetch_cons h, stepReset]

end Sys2Proof.Machine

/-! The statements of the family 60_exceptions.md. -/

namespace Sys2Proof.Proofs

open Sys2Proof.Machine Sys2Proof.Claims

/-- Settles O18: an instruction leaves ERR, is CLRERR or raises an error, and an error raised with one recorded changes
nothing. -/
theorem firstErrorIsKept : Obligations.FirstErrorIsKept := by
  refine ⟨State.raise_eq, fun i s t hexec herr hclr => ?_, fun s => ⟨s.clearErr, rfl, rfl⟩,
    fun s rest hprog => ⟨_, step_reset hprog, rfl⟩⟩
  rcases exec_err_cases hexec with hkept | ⟨heff, _⟩ | ⟨e, hraises⟩
  · exact hkept
  · exact absurd heff hclr
  · rw [hraises.err, State.raise_recorded herr]

/-- Settles O19: what takes ERR from 0 to a code raises an error, and each kind of error has its code and its cause. -/
theorem everyErrorCodeHasItsCause : Obligations.EveryErrorCodeHasItsCause := by
  intro i s t hexec hzero hcode
  rcases exec_err_cases hexec with hkept | ⟨_, rfl⟩ | ⟨e, ⟨hcause, herr, _, _, _⟩⟩
  · exact absurd (hkept.trans hzero) hcode
  · exact absurd rfl hcode
  · rw [State.raise_first hzero] at herr
    cases e with
    | invalidLength =>
      obtain ⟨a, b, heff, hlengths⟩ := hcause
      exact .inl ⟨herr, a, b, heff, variantOfLengths_eq_none.1 hlengths⟩
    | unsupportedPlatform => exact hcause.elim
    | notReady => exact .inr (.inl ⟨herr, hcause⟩)
    | illegalCommand =>
      obtain ⟨w, heff⟩ := hcause
      rcases effectOf_eq_reserved heff with hi | hreserved
      · exact .inr (.inr (.inr ⟨herr, w, hi⟩))
      · exact .inr (.inr (.inl ⟨herr, w, heff, hreserved⟩))

/-- Settles O20: what changes ERR is CLRERR, which writes nothing else, or raises an error. -/
theorem errorsLeaveTheInstanceAlone : Obligations.ErrorsLeaveTheInstanceAlone := by
  intro i s t hexec hchanged
  rcases exec_err_cases hexec with hkept | ⟨_, rfl⟩ | ⟨_, hraises⟩
  · exact absurd hkept hchanged
  · exact ⟨rfl, rfl, rfl⟩
  · exact ⟨hraises.inst, hraises.ready, hraises.variant⟩

/-- Settles O6: the read raises NotReady and returns 0. -/
theorem keystreamReadWithNoInstance : Obligations.KeystreamReadWithNoInstance := by
  intro s hready
  rw [exec_rdKsout_of_not_ready hready, State.raise_eq]
  rfl

/-- Settles O16: a WR CMD of a reserved word has the effect of the reserved command itself. -/
theorem reservedWordChangesOnlyErr : Obligations.ReservedWordChangesOnlyErr := fun w s hreserved =>
  ⟨exec_reserved w s, exec_wrCmd_of_reserved hreserved s⟩

end Sys2Proof.Proofs
end

section
/-! SUPPORT. Host programs under the discipline of R259 (70_reset_and_hazards.md): what the check on programs makes of
issued instructions, of more written words and of the driver's own events, when a step stops with a host fault, and two
runs from different stale words. -/

namespace Sys2Proof.Machine

/-! ## The host's record of an issued instruction -/

/-- R15, R174: what issues a well-formed instruction has that instruction's effect. -/
theorem effectOf_issued {i : Instr} (hwf : i.wellFormed = true) :
    effectOf (decodeTransaction (encodeTransaction i)) = effectOf i := by
  cases hf : i.format with
  | ht => rw [decodeTransaction_encodeTransaction_ht hf]
  | cmd =>
    rw [decodeTransaction_encodeTransaction_cmd hf, effectOf, ← effectOf_decodeCmd, decodeCmd_encodeCmd hwf hf]

/-- R259: the record sees an instruction only through its effect. -/
theorem Staged.after_congr {i j : Instr} (h : effectOf i = effectOf j) (g : Staged) : g.after i = g.after j := by
  rw [Staged.after, Staged.after, h]

/-- R259: the check sees an instruction only through its effect. -/
theorem Staged.tooEarly_congr {i j : Instr} (h : effectOf i = effectOf j) (g : Staged) :
    g.tooEarly i = g.tooEarly j := by
  rw [Staged.tooEarly, Staged.tooEarly, setupVariant, setupVariant, h]

/-- R259: what constructs nothing is never issued too early. -/
theorem Staged.tooEarly_of_setupVariant {i : Instr} (h : setupVariant i = none) (g : Staged) :
    g.tooEarly i = false := by
  rw [Staged.tooEarly, h]

/-- R36: no key word counts as written. -/
@[simp] theorem Staged.empty_key_get (i : Fin 8) : Staged.empty.key.get i = false := by
  simp [Staged.empty, Vector.get_eq_getElem]

/-- R36: no IV word counts as written. -/
@[simp] theorem Staged.empty_iv_get (j : Fin 4) : Staged.empty.iv.get j = false := by
  simp [Staged.empty, Vector.get_eq_getElem]

/-- R259: the KW + 4 words of a variant (R6). -/
theorem Staged.complete_iff_keyWordsOf {g : Staged} {v : Variant} :
    g.complete v = true ↔
      (∀ i : Fin 8, i.val < Claims.keyWordsOf v → g.key.get i = true) ∧ ∀ j : Fin 4, g.iv.get j = true := by
  rw [Staged.complete_iff]
  cases v <;> simp [Claims.keyWordsOf]

/-- R259: a word that is not written leaves the record incomplete. -/
theorem Staged.not_complete {g : Staged} {v : Variant}
    (h : (∃ i : Fin 8, i.val < Claims.keyWordsOf v ∧ g.key.get i = false) ∨ ∃ j : Fin 4, g.iv.get j = false) :
    g.complete v = false := by
  refine Bool.eq_false_iff.2 fun hcomplete => ?_
  obtain ⟨hkey, hiv⟩ := Staged.complete_iff_keyWordsOf.1 hcomplete
  rcases h with ⟨i, hi, hunwritten⟩ | ⟨j, hunwritten⟩
  · exact absurd (hkey i hi) (Bool.eq_false_iff.1 hunwritten)
  · exact absurd (hiv j) (Bool.eq_false_iff.1 hunwritten)

/-- R259: the registers marked as written after one is marked. -/
theorem get_set_true_eq_true {n : Nat} {g : Vector Bool n} {k i : Fin n} :
    (g.set k.val true k.isLt).get i = true ↔ i = k ∨ g.get i = true := by
  rw [← not_iff_not, Bool.not_eq_true, get_set_true_eq_false, not_or, Bool.not_eq_true]

/-! ## The check on programs -/

/-- R259: the check of an issued instruction and of what follows it. -/
theorem disciplined_issue {i : Instr} (hwf : i.wellFormed = true) (g : Staged) (es : List HostEvent) :
    disciplined g (issue i :: es) = (!g.tooEarly i && disciplined (g.after i) es) := by
  have heff := effectOf_issued hwf
  rw [issue, disciplined, Staged.tooEarly_congr heff, Staged.after_congr heff]

/-- R259: an instruction that constructs nothing only changes the record. -/
theorem disciplined_issue_of_setupVariant {i : Instr} (hwf : i.wellFormed = true) (hi : setupVariant i = none)
    (g : Staged) (es : List HostEvent) : disciplined g (issue i :: es) = disciplined (g.after i) es := by
  rw [disciplined_issue hwf, Staged.tooEarly_of_setupVariant hi, Bool.not_false, Bool.true_and]

/-- Every register that one record has as written, another has as written too. -/
structure Staged.Within (g h : Staged) : Prop where
  key : ∀ i, g.key.get i = true → h.key.get i = true
  iv : ∀ i, g.iv.get i = true → h.iv.get i = true

/-- A record has as written what it has as written. -/
theorem Staged.Within.refl (g : Staged) : g.Within g := ⟨fun _ => id, fun _ => id⟩

/-- R36: where nothing is written, every record has as much. -/
theorem Staged.empty_within (g : Staged) : Staged.empty.Within g where
  key i hi := absurd hi (by simp)
  iv i hi := absurd hi (by simp)

/-- R259: with more words written, no more SETUPs are too early. -/
theorem Staged.Within.tooEarly {g h : Staged} (hle : g.Within h) {i : Instr} (hi : g.tooEarly i = false) :
    h.tooEarly i = false := by
  refine Bool.eq_false_iff.2 fun hearly => ?_
  obtain ⟨v, hv, hincomplete⟩ := Staged.tooEarly_iff.1 hearly
  have hcomplete : g.complete v = true := by simpa [Staged.tooEarly, hv] using hi
  obtain ⟨hkey, hiv⟩ := Staged.complete_iff.1 hcomplete
  have hcomplete' : h.complete v = true :=
    Staged.complete_iff.2 ⟨fun k hk => hle.key k (hkey k hk), fun j => hle.iv j (hiv j)⟩
  exact absurd hcomplete' (Bool.eq_false_iff.1 hincomplete)

/-- R259: an instruction marks the same register in both records, or clears both. -/
theorem Staged.Within.after {g h : Staged} (hle : g.Within h) (i : Instr) : (g.after i).Within (h.after i) := by
  unfold Staged.after
  cases effectOf i with
  | wrKey k v =>
    exact ⟨fun i hi => get_set_true_eq_true.2 ((get_set_true_eq_true.1 hi).imp_right (hle.key i)), hle.iv⟩
  | wrIv k v =>
    exact ⟨hle.key, fun i hi => get_set_true_eq_true.2 ((get_set_true_eq_true.1 hi).imp_right (hle.iv i))⟩
  | setup _ _ | zeroize => exact .refl _
  | _ => exact hle

/-- R259: so do the driver's actions. -/
theorem Staged.Within.afterDriver {g h : Staged} (hle : g.Within h) (op : DriverOp) :
    (g.afterDriver op).Within (h.afterDriver op) := by
  cases op with
  | construct _ _ | confirm _ | dispose => exact .refl _
  | apply _ _ | takeWord _ | rewind => exact hle

/-- R259: a program that is disciplined from one record is disciplined with more words written. -/
theorem disciplined_mono {g h : Staged} (hle : g.Within h) {es : List HostEvent} (hes : disciplined g es = true) :
    disciplined h es = true := by
  induction es generalizing g h with
  | nil => rfl
  | cons e es ih =>
    cases e with
    | transaction t =>
      simp only [disciplined, Bool.and_eq_true, Bool.not_eq_true'] at hes ⊢
      obtain ⟨hcheck, hrest⟩ := hes
      exact ⟨hle.tooEarly hcheck, ih (hle.after _) hrest⟩
    | reset => exact hes
    | driver op => exact ih (hle.afterDriver op) hes

/-! ## The driver's own events -/

/-- R161: fetching a block stages nothing. -/
theorem disciplined_fetchEvents (g : Staged) (js : List (Fin 16)) (es : List HostEvent) :
    disciplined g (fetchEvents js ++ es) = disciplined g es := by
  induction js with
  | nil => rfl
  | cons j js ih => exact (disciplined_issue_of_setupVariant rfl rfl g _).trans ih

/-- R172, R259: some WR KEY of the host are recorded. -/
theorem disciplined_keyWrites (s : State) (ps : List (Word64 × Fin 8)) (es : List HostEvent) :
    disciplined s.host.staged (ps.map (fun p => issue (.wrKey p.2 p.1)) ++ es) =
      disciplined (s.afterKeyWrites ps).host.staged es := by
  induction ps generalizing s with
  | nil => rfl
  | cons p ps ih => exact (disciplined_issue_of_setupVariant rfl rfl _ _).trans (ih (s.afterKeyWrites [p]))

/-- R173, R259: some WR IV of the host are recorded. -/
theorem disciplined_ivWrites (s : State) (ps : List (Word64 × Fin 4)) (es : List HostEvent) :
    disciplined s.host.staged (ps.map (fun p => issue (.wrIv p.2 p.1)) ++ es) =
      disciplined (s.afterIvWrites ps).host.staged es := by
  induction ps generalizing s with
  | nil => rfl
  | cons p ps ih => exact (disciplined_issue_of_setupVariant rfl rfl _ _).trans (ih (s.afterIvWrites [p]))

/-- R204, R259: the driver's SETUP comes after all its words, since it is no host fault even of a host that is held to
R259. -/
theorem tooEarly_driverSetup {key iv : List Byte} (hkey : key.length ≤ 255) (hiv : iv.length ≤ 255) (s : State) :
    (s.afterDriverWrites key iv).host.staged.tooEarly (driverSetup key iv) = false :=
  hostFault_driverSetup hkey hiv { s with host := { s.host with strict := true } }

/-- R204: the driver's construction, event by event. -/
theorem constructEvents_append (key iv : List Byte) (es : List HostEvent) :
    constructEvents key iv ++ es =
      (slotWords 8 key).map (fun p => issue (.wrKey p.2 p.1)) ++
        ((slotWords 4 iv).map (fun p => issue (.wrIv p.2 p.1)) ++
          (issue (driverSetup key iv) :: issue .rdStatus ::
            .driver (.confirm (setupVariant (driverSetup key iv))) :: es)) := by
  simp only [constructEvents, List.append_assoc]
  rfl

/-- R204, R259: the driver's construction is disciplined from any record, and nothing counts as written after it. -/
theorem disciplined_constructEvents {key iv : List Byte} (hkey : key.length ≤ 255) (hiv : iv.length ≤ 255)
    (s : State) (es : List HostEvent) :
    disciplined s.host.staged (constructEvents key iv ++ es) = disciplined .empty es := by
  have hsetup : disciplined s.host.staged (constructEvents key iv ++ es) =
      disciplined (s.afterDriverWrites key iv).host.staged (issue (driverSetup key iv) :: issue .rdStatus ::
        .driver (.confirm (setupVariant (driverSetup key iv))) :: es) := by
    rw [constructEvents_append, disciplined_keyWrites, disciplined_ivWrites, State.afterDriverWrites]
  rw [hsetup, disciplined_issue rfl, tooEarly_driverSetup hkey hiv, Bool.not_false, Bool.true_and,
    disciplined_issue_of_setupVariant rfl rfl, disciplined, Staged.afterDriver]

/-! ## What a step leaves of a disciplined program -/

/-- R259: a transaction that completes leaves the rest of the program disciplined from the record that it makes. -/
theorem transact_keeps_discipline {i : Instr} {s t : State}
    (hs : disciplined (s.host.staged.after i) s.host.program = true) (h : transact i s = .next t) :
    disciplined t.host.staged t.host.program = true := by
  obtain ⟨_, u, hexec, rfl⟩ := transact_next h
  rwa [State.hostAfter_host_staged, State.hostAfter_host_program, exec_host_staged hexec, exec_host_program hexec]

/-- R259: the transactions that an action of the driver puts on the port are disciplined. -/
theorem driverStep_keeps_discipline {op : DriverOp} {s t : State}
    (hs : disciplined (s.host.staged.afterDriver op) s.host.program = true) (h : driverStep op s = .next t) :
    disciplined t.host.staged t.host.program = true := by
  rcases driverStep_next_cases h with ⟨rfl, _, _, rfl⟩ | ⟨_, _, rfl, rfl⟩ | ⟨rfl, rfl⟩ |
    ⟨key, iv, rfl, hkey, hiv, rfl⟩ | ⟨_, rfl, rfl⟩ | ⟨_, _, rfl, rfl⟩ | ⟨_, _, _, rfl, rfl⟩ | ⟨r, hop, rfl⟩
  · exact hs
  · rwa [State.setTb_host_staged, State.setTb_host_program]
  · exact hs
  · exact (disciplined_constructEvents hkey hiv s _).trans hs
  · exact disciplined_mono (Staged.empty_within _) hs
  · rw [State.issueFirst_host_program, nextBlockEvents_eq, List.append_assoc]
    exact (disciplined_fetchEvents ..).trans hs
  · exact hs
  · have hrest : disciplined .empty s.host.program = true := by
      rcases hop with ⟨_, _, rfl⟩ | ⟨_, rfl⟩ | rfl <;> exact hs
    exact (disciplined_issue_of_setupVariant rfl rfl _ _).trans hrest

/-! ## Which stops there are -/

/-- R220: the block's one stop is a read of KSOUT with cur = 16. -/
theorem exec_fault {i : Instr} {s : State} {f : Fault} (h : exec i s = .fault f) : f = .cursorSpent := by
  cases i with
  | rdKsout =>
    rw [exec, execRdKsout] at h
    rcases nextWord_cases Config.active s with ⟨_, heq⟩ | ⟨_, _, heq⟩ | ⟨_, _, _, _, heq⟩ <;> rw [heq] at h <;> cases h
    rfl
  | wrCmd v =>
    obtain ⟨t, hexec⟩ := exists_exec_wrCmd v s
    rw [hexec] at h
    cases h
  | _ => cases h

/-- R259, 93 U9: a transaction stops with setupBeforeStaged exactly where issuing it is a host fault. -/
theorem transact_eq_setupBeforeStaged_iff {i : Instr} {s : State} :
    transact i s = .fault .setupBeforeStaged ↔ s.hostFault i = true := by
  refine ⟨fun h => ?_, fun h => if_pos h⟩
  by_contra hfault
  rw [transact, if_neg hfault] at h
  cases hexec : exec i s with
  | next t => rw [hexec] at h; cases h
  | refused r => rw [hexec] at h; cases h
  | fault f =>
    rw [hexec, exec_fault hexec] at h
    cases h

/-- The driver's own stop is that no read has returned a word. -/
theorem driverStep_fault {op : DriverOp} {s : State} {f : Fault} (h : driverStep op s = .fault f) :
    f = .hostNoReturnedWord := by
  cases op with
  | construct key iv =>
    simp only [driverStep, driverConstruct] at h
    split at h <;> cases h
  | confirm expected =>
    simp only [driverStep, driverConfirm] at h
    split at h
    · cases h; rfl
    · split at h <;> cases h
  | apply buf len =>
    simp only [driverStep, driverApply] at h
    split at h
    · cases len with
      | zero => cases h
      | succ n => rw [applyBytes] at h; split at h <;> cases h
    · cases h
  | takeWord j =>
    simp only [driverStep, driverTakeWord] at h
    split at h <;> cases h
    rfl
  | rewind | dispose => cases h

/-! ## Two runs with different stale words -/

/-- Two states that agree on READY, on S, R, G and cur, and on the staged words that a record has as written: what a
disciplined host can tell of them through a SETUP. -/
structure AgreeOnWritten (g : Staged) (s u : State) : Prop where
  ready : s.ready = u.ready
  inst : s.inst = u.inst
  cursor : s.ready = true → s.inst.cur.val < 16
  key : ∀ i, g.key.get i = true → rget s.key i = rget u.key i
  iv : ∀ i, g.iv.get i = true → rget s.iv i = rget u.iv i

/-- R36: with nothing written, the staged words are free. -/
theorem AgreeOnWritten.of_inst {s u : State} (hready : s.ready = u.ready) (hinst : s.inst = u.inst)
    (hcur : s.ready = true → s.inst.cur.val < 16) : AgreeOnWritten .empty s u where
  ready := hready
  inst := hinst
  cursor := hcur
  key i hi := absurd hi (by simp)
  iv i hi := absurd hi (by simp)

/-- R172, R173: arrays that agree where they are written agree after one more word is written to both. -/
theorem rget_rset_of_written {n : Nat} {g : Vector Bool n} {x y : Vector Word64 n}
    (h : ∀ i, g.get i = true → rget x i = rget y i) (k : Fin n) (v : Word64) (i : Fin n)
    (hi : (g.set k.val true k.isLt).get i = true) : rget (rset x k v) i = rget (rset y k v) i := by
  rw [rget_rset, rget_rset]
  split
  · rfl
  · next hne => exact h i ((get_set_true_eq_true.1 hi).resolve_left hne)

section
variable {g : Staged} {s u : State} (h : AgreeOnWritten g s u)
include h

/-- R71: what a read returns is no part of what the two states agree on. -/
theorem AgreeOnWritten.returns (v w : Word64) : AgreeOnWritten g (s.returns v) (u.returns w) :=
  ⟨h.ready, h.inst, h.cursor, h.key, h.iv⟩

/-- R226, R231: ERR is no part of what the two states agree on. -/
theorem AgreeOnWritten.raise (e : ErrorKind) : AgreeOnWritten g (s.raise e) (u.raise e) := by
  rw [State.raise_eq, State.raise_eq]
  exact ⟨h.ready, h.inst, h.cursor, h.key, h.iv⟩

/-- R183: nor is ERR when it is cleared. -/
theorem AgreeOnWritten.clearErr : AgreeOnWritten g s.clearErr u.clearErr :=
  ⟨h.ready, h.inst, h.cursor, h.key, h.iv⟩

/-- R258, R259: a SETUP that is not too early constructs from written words only. -/
theorem AgreeOnWritten.setup {v : Variant} (hcomplete : g.complete v = true) :
    AgreeOnWritten .empty (s.afterSetup v) (u.afterSetup v) := by
  obtain ⟨hkey, hiv⟩ := Staged.complete_iff_keyWordsOf.1 hcomplete
  have hsameKey : ∀ i : Fin 8, i.val < Claims.keyWordsOf v → rget s.key i = rget u.key i :=
    fun i hi => h.key i (hkey i hi)
  have hsameIv : s.iv = u.iv := rget_ext fun j => h.iv j (hiv j)
  have hinst : (s.afterSetup v).inst = (u.afterSetup v).inst := by
    rw [State.afterSetup_inst, State.afterSetup_inst, construct_congr_key hsameKey, hsameIv, h.inst]
  have hready : (s.afterSetup v).ready = (u.afterSetup v).ready := by
    rw [State.afterSetup_ready, State.afterSetup_ready]
  exact .of_inst hready hinst fun _ => by simp

/-- R150: a read of KSOUT takes the same word in both states. -/
theorem AgreeOnWritten.exec_rdKsout :
    ∃ s' u', exec .rdKsout s = .next s' ∧ exec .rdKsout u = .next u' ∧ AgreeOnWritten g s' u' := by
  cases hready : s.ready with
  | false =>
    have hready_right : u.ready = false := h.ready ▸ hready
    exact ⟨_, _, exec_rdKsout_of_not_ready hready, exec_rdKsout_of_not_ready hready_right,
      (h.raise .notReady).returns 0 0⟩
  | true =>
    have hready_right : u.ready = true := h.ready ▸ hready
    obtain ⟨w, y, htake⟩ := exists_takeWord_of_cur_lt Config.active (h.cursor hready)
    have htake_right : takeWord Config.active u.inst = some (w, y) := h.inst ▸ htake
    exact ⟨_, _, exec_rdKsout_of_takeWord hready htake, exec_rdKsout_of_takeWord hready_right htake_right,
      h.ready, rfl, fun _ => takeWord_cur_lt htake, h.key, h.iv⟩

/-- R179, R259: a command that is not too early. -/
theorem AgreeOnWritten.exec_command {i : Instr} (hf : i.format = .cmd) (hi : g.tooEarly i = false) :
    ∃ s' u', exec i s = .next s' ∧ exec i u = .next u' ∧ AgreeOnWritten (g.after i) s' u' := by
  cases i with
  | nop => exact ⟨_, _, rfl, rfl, h⟩
  | clrerr => exact ⟨_, _, rfl, rfl, h.clearErr⟩
  | reserved w => exact ⟨_, _, rfl, rfl, h.raise .illegalCommand⟩
  | zeroize => exact ⟨_, _, rfl, rfl, .of_inst rfl rfl nofun⟩
  | setup a b =>
    refine ⟨_, _, rfl, rfl, ?_⟩
    cases hv : variantOfLengths a b with
    | none =>
      have hraised := h.raise .invalidLength
      rw [setupUnder_of_invalid hv, setupUnder_of_invalid hv]
      exact .of_inst hraised.ready hraised.inst hraised.cursor
    | some v =>
      have hvariant : setupVariant (.setup a b) = some v := hv
      rw [setupUnder_of_valid hv, setupUnder_of_valid hv]
      exact h.setup (by simpa [Staged.tooEarly, hvariant] using hi)
  | _ => cases hf

/-- R258, R259: an instruction that is not too early completes in both states and keeps them in agreement on the
words then written. -/
theorem AgreeOnWritten.exec {i : Instr} (hi : g.tooEarly i = false) :
    ∃ s' u', exec i s = .next s' ∧ exec i u = .next u' ∧ AgreeOnWritten (g.after i) s' u' := by
  cases i with
  | wrKey k v =>
    exact ⟨_, _, rfl, rfl, h.ready, h.inst, h.cursor, rget_rset_of_written h.key k v, h.iv⟩
  | wrIv k v =>
    exact ⟨_, _, rfl, rfl, h.ready, h.inst, h.cursor, h.key, rget_rset_of_written h.iv k v⟩
  | wrCmd v =>
    have heff : effectOf (.wrCmd v) = effectOf (decodeCmd v) := (effectOf_decodeCmd v).symm
    rw [exec_wrCmd, exec_wrCmd, Staged.after_congr heff]
    exact h.exec_command (decodeCmd_format v) (Staged.tooEarly_congr heff g ▸ hi)
  | rdKsout => exact h.exec_rdKsout
  | wrStatus _ | wrKsout _ | wrRsv15 _ => exact ⟨_, _, rfl, rfl, h⟩
  | rdKey _ | rdIv _ | rdCmd | rdStatus | rdRsv15 => exact ⟨_, _, rfl, rfl, h.returns ..⟩
  | nop | setup _ _ | zeroize | clrerr | reserved _ => exact h.exec_command rfl hi

end

/-- R259: some instructions whose program is disciplined complete from both states and end in agreement. -/
theorem AgreeOnWritten.runInstrs {is : List Instr} (hwf : ∀ i ∈ is, i.wellFormed = true) {g : Staged} {s u : State}
    (h : AgreeOnWritten g s u) (hdisc : disciplined g (is.map issue) = true) :
    ∃ g' s' u', Claims.runInstrs is s = .next s' ∧ Claims.runInstrs is u = .next u' ∧ AgreeOnWritten g' s' u' := by
  induction is generalizing g s u with
  | nil => exact ⟨g, s, u, rfl, rfl, h⟩
  | cons i is ih =>
    obtain ⟨hwf_head, hwf_tail⟩ := List.forall_mem_cons.1 hwf
    rw [List.map_cons, disciplined_issue hwf_head, Bool.and_eq_true, Bool.not_eq_true'] at hdisc
    obtain ⟨hcheck, hrest⟩ := hdisc
    obtain ⟨s', u', hs', hu', hnext⟩ := h.exec hcheck
    simpa only [Claims.runInstrs, hs', hu'] using ih hwf_tail hnext hrest

end Sys2Proof.Machine

/-! The statements of the family 70_reset_and_hazards.md. -/

namespace Sys2Proof.Proofs

open Sys2Proof.Machine Sys2Proof.Claims

/-- Settles O59, event by event: a transaction by the check on it, a driver action by the check on the events that it
puts first. -/
theorem disciplinedProgramsNeverSetUpEarly : Obligations.DisciplinedProgramsNeverSetUpEarly := by
  intro s hs
  rcases step_cases s with ⟨_, heq⟩ | ⟨t, rest, hprog, heq⟩ | ⟨rest, hprog, heq⟩ | ⟨op, rest, hprog, heq⟩ <;> rw [heq]
  · refine ⟨nofun, fun t ht => ?_⟩
    cases ht
    exact hs
  · rw [hprog, disciplined, Bool.and_eq_true, Bool.not_eq_true'] at hs
    obtain ⟨hcheck, hrest⟩ := hs
    refine ⟨fun hstop => ?_, fun u hu => transact_keeps_discipline (s := s.setProgram rest) hrest hu⟩
    have hfault := transact_eq_setupBeforeStaged_iff.1 hstop
    rw [State.hostFault, State.setProgram_host_staged, hcheck, Bool.and_false] at hfault
    cases hfault
  · rw [hprog] at hs
    refine ⟨nofun, fun t ht => ?_⟩
    cases ht
    exact hs
  · rw [hprog] at hs
    exact ⟨fun hstop => (nomatch driverStep_fault hstop),
      fun t ht => driverStep_keeps_discipline (s := s.setProgram rest) hs ht⟩

/-- Settles O12: LOAD writes all of S and R, and the generation pass all of G and cur. -/
theorem constructionForgetsTheOldInstance : Obligations.ConstructionForgetsTheOldInstance := construct_congr_inst

/-- Settles O55, by the relation `AgreeOnWritten` between the two runs, which begins with nothing written. -/
theorem disciplinedSetupUsesOnlyWrittenWords : Obligations.DisciplinedSetupUsesOnlyWrittenWords := by
  intro v is s₁ s₂ hinst hready hcur hwf hdisc
  have hwf_all : ∀ i ∈ is ++ [.setup (klenOf v) 32], i.wellFormed = true := by
    simpa [or_imp, forall_and] using ⟨hwf, rfl⟩
  obtain ⟨_, t₁, t₂, ht₁, ht₂, hagree⟩ := (AgreeOnWritten.of_inst hready hinst hcur).runInstrs hwf_all hdisc
  exact ⟨t₁, t₂, ht₁, ht₂, hagree.inst⟩

/-- Settles O58: the host's check of the SETUP, and the block's effect where the host is not held to it. -/
theorem earlySetupIsAHostFault : Obligations.EarlySetupIsAHostFault := by
  intro s t rest w v hprog hdecode hd hunwritten
  have hvariant : setupVariant (.wrCmd w) = some v :=
    hdecode ▸ setupVariant_decodeTransaction.2 ⟨w, hdecode, hd⟩
  rw [step_transaction hprog, hdecode]
  refine ⟨fun hstrict => ?_, fun hstrict => ?_⟩
  · exact transact_eq_setupBeforeStaged_iff.2
      (State.hostFault_eq_true.2 ⟨hstrict, v, hvariant, Staged.not_complete hunwritten⟩)
  · have hfault : (s.setProgram rest).hostFault (.wrCmd w) = false := by simp [State.hostFault, hstrict]
    exact ⟨_, transact_of_exec hfault (exec_of_setupVariant hvariant _), by simp⟩

/-- Settles O43: the step takes the event from the program and is the block's reset. -/
theorem resetEventResetsTheBlock : Obligations.ResetEventResetsTheBlock := fun _ _ hprog => step_reset hprog

end Sys2Proof.Proofs
end
